-- ==== Sys2Proof/Word.lean ====
section
/-! DEFINITION. The machine's one word, the octet (00_scope.md R9), and byte strings (R10). -/

namespace Sys2Proof

/-- An octet: an unsigned 8-bit value, bit 0 the least significant (00_scope.md R9). -/
abbrev Byte := BitVec 8

/-- A byte string: a finite sequence of octets, index 0 first (00_scope.md R10). -/
abbrev Bytes := List Byte

end Sys2Proof
end

