-- ==== Sys2Proof/Config.lean ====
section
/-! DEFINITION. What an implementation fixes (00_scope.md R8), the literals of the wire format, and the free values. -/

namespace Sys2Proof.Config

/-- The marker octet that opens and closes every frame (30_encoding.md R85). -/
def marker : Byte := 0xF9

/-- The reflected CRC polynomial (40_codec.md R110). -/
def crcPolynomial : Byte := 0xE0

/-- The CRC register's first value (40_codec.md R110). -/
def crcInitial : Byte := 0xFF

/-- `MAX_LEN`: the longest payload of one frame (00_scope.md R8). -/
def maxLen : Nat := 127

/-- `SEG_LEN`: the writer's segment size (00_scope.md R8). -/
def segLen : Nat := 127

/-- `HDR_BUF`: the octets of the header buffer (00_scope.md R8). -/
def hdrBuf : Nat := 6

/-- `RBUF_CAP`: the octets of the reassembly buffer (00_scope.md R8). -/
def rbufCap : Nat := 127

/-- The largest channel id that the 6-bit address field can carry (30_encoding.md R81). -/
def maxChannel : Nat := 63

/-- The number of channel ids (20_memory.md R60). -/
abbrev numIds : Nat := 64

/-- The poll/final bit of a control octet (30_encoding.md R82). -/
def pfMask : Byte := 0x10

/-- The control octet of every data frame the writer sends: UIH, poll/final clear (41_writer.md R130). -/
def dataCtrl : Byte := 0xEF

/-- The default of `N_DATA` (00_scope.md R8, D2). -/
def nDataDefault : Fin numIds := 2

/-- The default of `ACK_CTRL` (00_scope.md R8, D5). -/
def ackCtrlDefault : Byte := 0x73

/-- The default of `VERIFY_FCS` (00_scope.md R8, D4). -/
def verifyFcsDefault : Bool := false

/-- The value of `DEFRAG` in `State.reset`. DESIGN CHOICE (log 2): the spec leaves `DEFRAG` open. -/
def defragAtReset : Bool := true

/-- Free octets: the contents of `hdr` and `rbuf` after the operation RESET, which the spec leaves
unspecified (70_reset_and_hazards.md R260, 93 U10). It has no body: nothing can be proved of a value (log 26). -/
opaque freeOctet : Nat → Byte

end Sys2Proof.Config
end

