-- ==== Sys2Proof/Syntax.lean ====
section
/-! DEFINITION. The instructions: one constructor for every row of spec/opcode_table.json
(11 frame rows, 30_encoding.md R80 to R90; 19 interface operations, 30_encoding.md R91). -/

namespace Sys2Proof

/-- A callback handle. The spec's `Handle` is an opaque type (D31). DESIGN CHOICE (log 14): handles are names. -/
structure Handle where
  id : Nat
  deriving DecidableEq, Repr

/-- What a frame carries beside its control octet (30_encoding.md R80, R81, R83): the channel id (address bits 7:2),
the address bits 1:0 and the length bit 0, which the decoder ignores (R89), the payload and the received FCS octet. -/
structure Frame where
  ch      : BitVec 6
  addrLow : BitVec 2
  lenLow  : BitVec 1
  payload : Bytes
  fcs     : Byte
  deriving DecidableEq, Repr

/-- The four octets of a header: marker, address, control, length (40_codec.md R112). -/
structure Header where
  marker : Byte
  addr   : Byte
  ctrl   : Byte
  len    : Byte
  deriving DecidableEq, Repr

/-- The operand of RESET: the configuration record as it is asked for, `N_DATA` not yet checked (10_state.md R20). -/
structure CfgRequest where
  nData     : Nat
  defrag    : Bool
  verifyFcs : Bool
  ackCtrl   : Byte
  deriving DecidableEq, Repr

/-- The instructions of the core: the frames it parses and the calls made on it. -/
inductive Instr where
  | rr (pf : Bool) (f : Frame)
  | ui (pf : Bool) (f : Frame)
  | rnr (pf : Bool) (f : Frame)
  | rej (pf : Bool) (f : Frame)
  | dm (pf : Bool) (f : Frame)
  | sabm (pf : Bool) (f : Frame)
  | disc (pf : Bool) (f : Frame)
  | ua (pf : Bool) (f : Frame)
  | uih (pf : Bool) (f : Frame)
  | ack (f : Frame)
  | anyOtherControl (c : Byte) (f : Frame)
  | crc8 (d : Bytes)
  | fcs (a c l : Byte)
  | encodeHeader (ch : Nat) (kind : Byte) (pf : Bool) (n : Nat)
  | encodeTrailer (h : Header)
  | decodeHeader (h : Header)
  | fcsCheck (a c l f : Byte)
  | write (ch : Nat) (p : Bytes)
  | sendCtrl (ch : Nat) (kind : Byte) (pf : Bool)
  | rxChunk (c : Bytes)
  | registerCallback (ch : Nat) (h : Handle)
  | dispatch (ch : Nat) (bs : Bytes)
  | setOpen (ch : Nat)
  | getOpen (ch : Nat)
  | ackRead
  | ackClear
  | start
  | stop
  | teardown
  | reset (cfg : CfgRequest)
  deriving DecidableEq, Repr

end Sys2Proof
end

