-- ==== Sys2Proof/Decode.lean ====
section
/-! DEFINITION. The wire format (30_encoding.md R80 to R90): the frame decoder, total on any octets and rejecting by
name, and after it the encoder, written from the same tables. The interface operations have no words (R91). -/

namespace Sys2Proof

/-! ## Header fields (30_encoding.md R81 to R83, R86) -/

/-- The channel id of an address octet: `A >> 2` (30_encoding.md R81). -/
def chanOf (a : Byte) : Nat := (a >>> 2).toNat

/-- The payload length of a length octet: `L >> 1` (30_encoding.md R83). -/
def lenOf (l : Byte) : Nat := (l >>> 1).toNat

/-- The poll/final bit of a control octet: `C[4]` (30_encoding.md R82). -/
def pfOf (c : Byte) : Bool := c.getLsbD 4

/-- The control octet of a frame kind with the poll/final bit (30_encoding.md R82). -/
def ctrlByte (kind : Byte) (pf : Bool) : Byte := if pf then kind ||| Config.pfMask else kind

/-! ## The frame kinds (30_encoding.md R87) -/

/-- The nine frame kinds that R87 names. -/
inductive FrameKind where
  | rr | ui | rnr | rej | dm | sabm | disc | ua | uih
  deriving DecidableEq, Repr

/-- The control octet of a kind with the poll/final bit clear. Only UIH's is the source's (log 23). -/
def FrameKind.code : FrameKind → Byte
  | .rr   => 0x01
  | .ui   => 0x03
  | .rnr  => 0x05
  | .rej  => 0x09
  | .dm   => 0x0F
  | .sabm => 0x2F
  | .disc => 0x43
  | .ua   => 0x63
  | .uih  => 0xEF

/-- The nine kinds, in the opcode table's order. -/
def allKinds : List FrameKind := [.rr, .ui, .rnr, .rej, .dm, .sabm, .disc, .ua, .uih]

/-- The mask of the nine rows: every bit but poll/final (opcode_table.json, mask 0xEF). -/
def kindMask : Byte := 0xEF

/-- The kind that a control octet names, if any: the row whose code it matches under the mask. -/
def kindOf (c : Byte) : Option FrameKind := allKinds.find? fun k => k.code == c &&& kindMask

/-- The instruction of a frame with control octet `c`. An octet 0x73 with no payload is the row ACK, the
acknowledgement with the default `ACK_CTRL` (log 16); an octet that no row names is ANY_OTHER_CONTROL. -/
def instrOf (c : Byte) (f : Frame) : Instr :=
  if c = Config.ackCtrlDefault ∧ f.payload.length = 0 then .ack f
  else match kindOf c with
    | some .rr   => .rr (pfOf c) f
    | some .ui   => .ui (pfOf c) f
    | some .rnr  => .rnr (pfOf c) f
    | some .rej  => .rej (pfOf c) f
    | some .dm   => .dm (pfOf c) f
    | some .sabm => .sabm (pfOf c) f
    | some .disc => .disc (pfOf c) f
    | some .ua   => .ua (pfOf c) f
    | some .uih  => .uih (pfOf c) f
    | none       => .anyOtherControl c f

/-! ## Decoding -/

/-- Why octets are no frame: no octet at all, no opening marker, a second marker where the address octet stands
(it is absorbed, 42_decoder.md R152), fewer octets than the length octet asks for, no closing marker. -/
inductive DecodeError where
  | empty
  | noStart (b : Byte)
  | doubledMarker
  | truncated
  | noEnd (b : Byte)
  deriving DecidableEq, Repr

/-- The frame record of the octets A, L, payload and FCS. -/
def frameOf (a l : Byte) (payload : Bytes) (fcs : Byte) : Frame :=
  { ch := a.extractLsb' 2 6, addrLow := a.extractLsb' 0 2, lenLow := l.extractLsb' 0 1, payload := payload, fcs := fcs }

/-- What follows the header `A C L` of a frame: `len` payload octets, the FCS octet, the closing marker
(30_encoding.md R80, R90). -/
def decodeBody (a c l : Byte) (body : Bytes) : Except DecodeError (Instr × Bytes) :=
  match body.drop (lenOf l) with
  | f :: e :: rest =>
    if e = Config.marker then .ok (instrOf c (frameOf a l (body.take (lenOf l)) f), rest) else .error (.noEnd e)
  | _ => .error .truncated

/-- The first frame of an octet string and the octets after it, or the reason why it does not begin with one. -/
def decode (bytes : Bytes) : Except DecodeError (Instr × Bytes) :=
  match bytes with
  | [] => .error .empty
  | m :: rest =>
    if m = Config.marker then
      match rest with
      | [] => .error .truncated
      | a :: rest =>
        if a = Config.marker then .error .doubledMarker
        else match rest with
          | c :: l :: body => decodeBody a c l body
          | _ => .error .truncated
    else .error (.noStart m)

/-- The instruction that an arriving chunk stands for: the frame, when the chunk is exactly one frame, and otherwise
the call RX_CHUNK with those octets (42_decoder.md R150; log 17). -/
def fetch (chunk : Bytes) : Instr :=
  match decode chunk with
  | .ok (i, []) => i
  | _ => .rxChunk chunk

/-! ## Encoding -/

/-- The address octet of a frame (30_encoding.md R81). -/
def addrByte (f : Frame) : Byte := f.ch ++ f.addrLow

/-- The length octet of a frame (30_encoding.md R83). -/
def lenByte (f : Frame) : Byte := BitVec.ofNat 7 f.payload.length ++ f.lenLow

/-- The octets of a frame with control octet `c` (30_encoding.md R80). -/
def frameBytes (c : Byte) (f : Frame) : Bytes :=
  Config.marker :: addrByte f :: c :: lenByte f :: (f.payload ++ [f.fcs, Config.marker])

/-- The control octet and the frame of a frame instruction; none for an interface operation. -/
def frameParts (i : Instr) : Option (Byte × Frame) :=
  match i with
  | .rr pf f   => some (ctrlByte FrameKind.rr.code pf, f)
  | .ui pf f   => some (ctrlByte FrameKind.ui.code pf, f)
  | .rnr pf f  => some (ctrlByte FrameKind.rnr.code pf, f)
  | .rej pf f  => some (ctrlByte FrameKind.rej.code pf, f)
  | .dm pf f   => some (ctrlByte FrameKind.dm.code pf, f)
  | .sabm pf f => some (ctrlByte FrameKind.sabm.code pf, f)
  | .disc pf f => some (ctrlByte FrameKind.disc.code pf, f)
  | .ua pf f   => some (ctrlByte FrameKind.ua.code pf, f)
  | .uih pf f  => some (ctrlByte FrameKind.uih.code pf, f)
  | .ack f     => some (Config.ackCtrlDefault, f)
  | .anyOtherControl c f => some (c, f)
  | .crc8 _ => none
  | .fcs _ _ _ => none
  | .encodeHeader _ _ _ _ => none
  | .encodeTrailer _ => none
  | .decodeHeader _ => none
  | .fcsCheck _ _ _ _ => none
  | .write _ _ => none
  | .sendCtrl _ _ _ => none
  | .rxChunk _ => none
  | .registerCallback _ _ => none
  | .dispatch _ _ => none
  | .setOpen _ => none
  | .getOpen _ => none
  | .ackRead => none
  | .ackClear => none
  | .start => none
  | .stop => none
  | .teardown => none
  | .reset _ => none

/-- The octets of an instruction: a frame's wire octets; none for an interface operation, which "have no bit encoding
(they are calls, not words)" (30_encoding.md R91). -/
def encode (i : Instr) : Option Bytes := (frameParts i).map fun p => frameBytes p.1 p.2

/-! ## Words numbered as the opcode table numbers them -/

/-- The wire octets of a table word. A frame row's bits are the control octet's (bits 7:0); the operand octets follow
in the model's order A (15:8), L (23:16), FCS (31:24), and payload octets are zero (log 15). -/
def tableWire (nbits w : Nat) : Bytes :=
  let v : BitVec 32 := BitVec.ofNat 32 (w % 2 ^ nbits)
  let l : Byte := v.extractLsb' 16 8
  Config.marker :: v.extractLsb' 8 8 :: v.extractLsb' 0 8 :: l ::
    (List.replicate (lenOf l) 0 ++ [v.extractLsb' 24 8, Config.marker])

/-- The instruction that the decoder reads from a table word. -/
def decodeTableWord (nbits w : Nat) : Option Instr :=
  match decode (tableWire nbits w) with
  | .ok (i, []) => some i
  | _ => none

end Sys2Proof
end

