-- ==== Sys2Proof/WellFormed.lean ====
section
/-! DEFINITION. Which instructions are well formed: the operand domains of 30_encoding.md R80 to R91, and, for a frame,
that it is the row its control octet and length select. -/

namespace Sys2Proof

/-- A frame that fits the wire format: a payload of at most 127 octets (30_encoding.md R83), and an address octet that
is not the marker, which the decoder would absorb (42_decoder.md R152). -/
def Frame.ok (f : Frame) : Bool := decide (f.payload.length ≤ Config.maxLen) && addrByte f != Config.marker

/-- A channel id that the 6-bit field carries (20_memory.md R60). -/
def channelOk (ch : Nat) : Bool := decide (ch ≤ Config.maxChannel)

/-- The well-formedness check of an instruction. -/
def wellFormed (i : Instr) : Bool :=
  match i with
  | .rr _ f   => f.ok
  | .ui _ f   => f.ok
  | .rnr _ f  => f.ok
  | .rej _ f  => f.ok
  | .dm _ f   => f.ok
  | .sabm _ f => f.ok
  | .disc _ f => f.ok
  | .ua pf f  => f.ok && !(pf && f.payload.length == 0)
  | .uih _ f  => f.ok
  | .ack f    => f.ok && f.payload.length == 0
  | .anyOtherControl c f => f.ok && (kindOf c).isNone
  | .crc8 _ => true
  | .fcs _ _ _ => true
  | .encodeHeader ch _ _ n => channelOk ch && decide (n ≤ Config.maxLen)
  | .encodeTrailer _ => true
  | .decodeHeader _ => true
  | .fcsCheck _ _ _ _ => true
  | .write ch _ => channelOk ch
  | .sendCtrl ch _ _ => channelOk ch
  | .rxChunk _ => true
  | .registerCallback ch _ => channelOk ch
  | .dispatch ch bs => channelOk ch && decide (1 ≤ bs.length) && decide (bs.length ≤ Config.maxLen)
  | .setOpen ch => channelOk ch
  | .getOpen ch => channelOk ch
  | .ackRead => true
  | .ackClear => true
  | .start => true
  | .stop => true
  | .teardown => true
  | .reset r => decide (r.nData ≤ Config.maxChannel)

end Sys2Proof
end

