-- ==== Sys2Proof/Machine/State.lean ====
section
/-! DEFINITION. The machine's state, as plain data: everything the spec gives the core (10_state.md R20 to R39), the
calls that have begun and not returned, and the environment's inputs; the reasons a step can stop; reset. -/

namespace Sys2Proof.Machine

/-- The identity of a caller: the `c` of `held(c)` (10_state.md R33). -/
abbrev Caller := Nat

/-- The configuration record of an instance (10_state.md R20); the type bounds `N_DATA` by 63. -/
structure Cfg where
  nData     : Fin Config.numIds
  defrag    : Bool
  verifyFcs : Bool
  ackCtrl   : Byte
  deriving DecidableEq, Repr

/-- `st` (10_state.md R22). -/
inductive Phase where
  | init | header | payload | footer | recover
  deriving DecidableEq, Repr

/-- `hdr[0..5]` (10_state.md R24): position of the opening marker, address, control, length, received FCS, received
closing marker. -/
structure Hdr where
  h0 : Byte
  h1 : Byte
  h2 : Byte
  h3 : Byte
  h4 : Byte
  h5 : Byte
  deriving DecidableEq, Repr

/-- A memory: (address, octet) cells, addresses strictly rising, none holding what an unlisted address reads as. -/
abbrev Memory := List Host.Cell

/-- The Decoder Cursor (10_state.md R21 to R28). -/
structure Cursor where
  st   : Phase
  cnt  : Nat
  hdr  : Hdr
  ch   : Nat
  kind : Byte
  rem  : Nat
  rbuf : Memory
  rlen : Nat
  deriving DecidableEq, Repr

/-- `txlock` (10_state.md R33). -/
inductive TxLock where
  | free
  | held (c : Caller)
  deriving DecidableEq, Repr

/-- `life` (10_state.md R34). -/
inductive Life where
  | alive | tornDown
  deriving DecidableEq, Repr

/-- An event (00_scope.md R12): the callback `h` of channel `ch` was invoked with octets `bs`; an acknowledgement was
signalled for channel `ch`. -/
inductive Event where
  | deliver (ch : Nat) (h : Handle) (bs : Bytes)
  | ack (ch : Nat)
  deriving DecidableEq, Repr

/-- An entry of the diagnostic trace (60_exceptions.md R221), with the information it records. -/
inductive Diag where
  | noStart (b : Byte)
  | noEnd (b : Byte)
  | fcsMismatch (b : Byte)
  | unknownChannel (ch : Nat)
  | noCallback (ch : Nat)
  | txIoError
  deriving DecidableEq, Repr

/-- A call that the core makes on the transport (60_exceptions.md R231). -/
inductive PortCall where
  | write (bs : Bytes)
  | start
  | stop
  deriving DecidableEq, Repr

/-- The transport's answer to one TxWrite: `Ok(k)` is `some k`, `Err` is none; `put` is how many octets of a write that
fails reached the wire (41_writer.md R133). -/
structure TxReply where
  ret : Option Nat
  put : Nat
  deriving DecidableEq, Repr

/-- A result value (10_state.md R39(c)). `count n` is `Ok(n)`; `ack` is the acknowledgement register's content. -/
inductive Value where
  | octet (b : Byte)
  | octets (bs : Bytes)
  | bool (b : Bool)
  | fields (ch : Nat) (kind : Byte) (pf : Bool) (len : Nat)
  | count (n : Nat)
  | ioError
  | ack (a : Option Nat)
  | stopped
  deriving DecidableEq, Repr

/-- A result given back to a caller. -/
structure Returned where
  caller : Caller
  value  : Value
  deriving DecidableEq, Repr

/-- Where a writer call stands: it waits for `txlock`; it holds it, between two TxWrites; it is inside a TxWrite. -/
inductive TxPhase where
  | waiting | ready | inWrite
  deriving DecidableEq, Repr

/-- A writer call that has not returned: its caller, where it stands, the TxWrite strings it still has to make (the
first of them being made in phase `inWrite`), and the count it returns on success (41_writer.md R130, R135). -/
structure TxJob where
  caller : Caller
  phase  : TxPhase
  todo   : List Bytes
  total  : Nat
  deriving DecidableEq, Repr

/-- A call that has begun and not returned: an RX_CHUNK with the octets it has not consumed (42_decoder.md R150), or a
writer call. -/
inductive Task where
  | rx (c : Caller) (rest : Bytes)
  | tx (job : TxJob)
  deriving DecidableEq, Repr

/-- Where the handshake agent stands in the loop of 60_exceptions.md R233. -/
inductive HandshakePhase where
  | clear | send | sent | poll | mark
  deriving DecidableEq, Repr

/-- The handshake agent while `OPEN()` runs (60_exceptions.md R233). -/
structure Handshake where
  caller     : Caller
  sabmCtrl   : Byte
  retryBound : Nat
  ch         : Nat
  tries      : Nat
  phase      : HandshakePhase
  deriving DecidableEq, Repr

/-- A move of the environment (60_exceptions.md R237; log 1): a chunk arrives from the transport; a caller makes a call,
which runs until it returns or must wait; a caller begins a call and nothing more; the innermost call of a caller makes
one move; an answer of the transport to a TxWrite becomes available; the handshake agent starts; it makes one move. -/
inductive Move where
  | arrive (c : Caller) (chunk : Bytes)
  | call (c : Caller) (i : Instr)
  | begin (c : Caller) (i : Instr)
  | advance (c : Caller)
  | reply (r : TxReply)
  | openBegin (c : Caller) (sabmCtrl : Byte) (retryBound : Nat)
  | openTick
  deriving DecidableEq, Repr

/-- The state of the core and of its inputs (INVENTORY.md, State). -/
structure State where
  cfg        : Cfg
  cur        : Cursor
  cb         : Vector (Option Handle) Config.numIds
  opened     : Vector Bool Config.numIds
  ackReg     : Option Nat
  txlock     : TxLock
  life       : Life
  rxBusy     : Bool
  callback   : Option Nat
  inflight   : List Task
  events     : List Event
  diags      : List Diag
  portCalls  : List PortCall
  wire       : Bytes
  results    : List Returned
  caller     : Caller
  replies    : List TxReply
  agenda     : List Move
  handshake  : Option Handshake
  openResult : Option Bool
  draws      : Nat
  deriving DecidableEq, Repr

/-- Why the machine stops with a fault. The core has no trap (60_exceptions.md R220): both faults are the model's own
and safe (log 20); no state that meets the cursor invariants raises one. -/
inductive Fault where
  /-- Raised by a byte step that would store a header octet outside `hdr[0..5]` (10_state.md R24). Safe. -/
  | headerBounds (cnt : Nat)
  /-- Raised by MemWrite or MemRead of `n` octets at `a` outside `rbuf[0..126]` (20_memory.md R61). Safe. -/
  | bufferBounds (a n : Nat)
  deriving DecidableEq, Repr

/-- Why a call has no meaning (60_exceptions.md R225). A refusal ends the run: nothing can be claimed past it (log 5). -/
inductive Refusal where
  /-- An instruction that has no meaning yet; raised by no arm of `exec`. Safe. -/
  | notModelled (mnemonic : String)
  /-- `AfterTeardown`: raised by every operation but ACK_READ and RESET when `life` is `TORN_DOWN` (RESET: log 8). Safe. -/
  | afterTeardown
  /-- `ChannelRange`: raised by WRITE, SEND_CTRL, REGISTER_CALLBACK, SET_OPEN, GET_OPEN on `ch > N_DATA`. Safe. -/
  | channelRange
  /-- `CodecDomain`: raised by ENCODE_HEADER on `ch > 63` or `n > 127`. Safe. -/
  | codecDomain
  /-- `RxOverlap`: raised by RX_CHUNK, and by an arriving frame, while another RX_CHUNK runs. Safe. -/
  | rxOverlap
  /-- `BadConfig`: raised by RESET on `N_DATA > 63`. Safe. -/
  | badConfig
  /-- `TeardownBusy`: raised by TEARDOWN while an RX_CHUNK or a writer call is executing. Safe. -/
  | teardownBusy
  deriving DecidableEq, Repr

/-- What a step or a meaning answers. -/
abbrev Result := Host.Outcome State Fault Refusal

/-- What the beginning of a call answers: it is refused, or it has begun as a task. -/
inductive Begun where
  | refused (r : Refusal)
  | begun (t : Task) (s : State)
  deriving DecidableEq, Repr

/-- What one move of a begun call answers: it must wait and nothing changes; it faults; it returns; it goes on. -/
inductive Moved where
  | blocked
  | fault (f : Fault)
  | returned (s : State)
  | goesOn (t : Task) (s : State)
  deriving DecidableEq, Repr

/-- The configuration of `State.reset`: the spec's defaults (00_scope.md R8); `DEFRAG` is a DESIGN CHOICE (log 2). -/
def Cfg.default : Cfg :=
  { nData := Config.nDataDefault, defrag := Config.defragAtReset, verifyFcs := Config.verifyFcsDefault
    ackCtrl := Config.ackCtrlDefault }

/-- The cursor after reset (70_reset_and_hazards.md R261). `hdr` and the buffer's contents are unspecified there; the
zeros are a DESIGN CHOICE (log 3). -/
def Cursor.reset : Cursor :=
  { st := .init, cnt := 0, hdr := ⟨0, 0, 0, 0, 0, 0⟩, ch := 0, kind := 0, rem := 0, rbuf := [], rlen := 0 }

/-- A newly constructed instance with configuration `cfg`, no call made and no input waiting
(70_reset_and_hazards.md R260, R261). -/
def State.construct (cfg : Cfg) : State :=
  { cfg := cfg, cur := Cursor.reset, cb := Vector.replicate _ none, opened := Vector.replicate _ false, ackReg := none
    txlock := .free, life := .alive, rxBusy := false, callback := none, inflight := [], events := [], diags := []
    portCalls := [], wire := [], results := [], caller := 0, replies := [], agenda := [], handshake := none
    openResult := none, draws := 0 }

/-- The machine right after reset. -/
def State.reset : State := State.construct Cfg.default

end Sys2Proof.Machine
end

