-- ==== Sys2Proof/Machine/Operands.lean ====
section
/-! DEFINITION. Operand assembly: the frame codec's pure functions (40_codec.md R110 to R114, R117) and the TxWrite
strings of the writer (41_writer.md R130 to R136). -/

namespace Sys2Proof.Machine

/-! ## CRC-8 and FCS -/

/-- One shift of the reflected CRC register (40_codec.md R110). -/
def crcShift (crc : Byte) : Byte :=
  if crc.getLsbD 0 then (crc >>> 1) ^^^ Config.crcPolynomial else crc >>> 1

/-- `n` shifts. -/
def crcShifts : Nat → Byte → Byte
  | 0, crc => crc
  | n + 1, crc => crcShifts n (crcShift crc)

/-- The CRC register after one octet (40_codec.md R110). -/
def crcOctet (crc b : Byte) : Byte := crcShifts 8 (crc ^^^ b)

/-- `CRC8(d)` (40_codec.md R110). -/
def crc8 (d : Bytes) : Byte := d.foldl crcOctet Config.crcInitial

/-- `FCS(a, c, l)` (40_codec.md R111). -/
def fcsOf (a c l : Byte) : Byte := 0xFF - crc8 [a, c, l]

/-! ## Headers and trailers -/

/-- The octets of a header, in wire order. -/
def Header.octets (h : Header) : Bytes := [h.marker, h.addr, h.ctrl, h.len]

/-- `ENCODE_HEADER` on its domain `ch <= 63`, `n <= 127` (40_codec.md R112). -/
def encodeHeader (ch : Nat) (kind : Byte) (pf : Bool) (n : Nat) : Header :=
  { marker := Config.marker
    addr := (BitVec.ofNat 8 ch <<< 2) ||| 0x03
    ctrl := ctrlByte kind pf
    len := (BitVec.ofNat 8 n <<< 1) ||| 0x01 }

/-- `ENCODE_TRAILER(h)` (40_codec.md R113). -/
def encodeTrailer (h : Header) : Bytes := [fcsOf h.addr h.ctrl h.len, Config.marker]

/-- `DECODE_HEADER(h)` (40_codec.md R114). -/
def decodeHeader (h : Header) : Value := .fields (chanOf h.addr) h.ctrl (pfOf h.ctrl) (lenOf h.len)

/-! ## The writer's strings -/

/-- The segments of a payload: at most 127 octets each, in order, none empty (41_writer.md R131). The first argument is
fuel, at least the payload's length. -/
def segmentsFuel : Nat → Bytes → List Bytes
  | 0, _ => []
  | _ + 1, [] => []
  | n + 1, b :: p => (b :: p).take Config.segLen :: segmentsFuel n ((b :: p).drop Config.segLen)

/-- The segments of a payload (41_writer.md R131). -/
def segments (p : Bytes) : List Bytes := segmentsFuel p.length p

/-- The three TxWrite strings of one data segment: header, segment, trailer (41_writer.md R132). -/
def segmentStrings (ch : Nat) (seg : Bytes) : List Bytes :=
  let h := encodeHeader ch Config.dataCtrl false seg.length
  [Header.octets h, seg, encodeTrailer h]

/-- The TxWrite strings of `WRITE(ch, p)`, in order (41_writer.md R130; log 29). -/
def writeStrings (ch : Nat) (p : Bytes) : List Bytes := (segments p).flatMap (segmentStrings ch)

/-- The two TxWrite strings of `SEND_CTRL(ch, kind, pf)` (41_writer.md R136). -/
def ctrlStrings (ch : Nat) (kind : Byte) (pf : Bool) : List Bytes :=
  let h := encodeHeader ch kind pf 0
  [Header.octets h, encodeTrailer h]

end Sys2Proof.Machine
end

