-- ==== Sys2Proof/Machine/Flags.lean ====
section
/-! DEFINITION. The Bool outputs and tests of the core (10_state.md R37): the FCS check, "need more data", which
channels are known, and the route of a frame. The core has no condition codes. -/

namespace Sys2Proof.Machine

/-- `FCS_CHECK(a, c, l, f)` (40_codec.md R115): equality with the recomputed FCS. -/
def fcsCheck (a c l f : Byte) : Bool := f == fcsOf a c l

/-- What RX_CHUNK returns: the stream is at a frame boundary (42_decoder.md R161). -/
def atBoundary (st : Phase) : Bool := st == .init

/-- Whether a channel id is backed: 0..N_DATA (20_memory.md R68). -/
def known (cfg : Cfg) (ch : Nat) : Bool := decide (ch ≤ cfg.nData.val)

/-- The route of a frame (42_decoder.md R154). -/
inductive Route where
  | drop | ack | data
  deriving DecidableEq, Repr

/-- `Route()`: a function of the address, control and length octets and the configuration; an unknown channel comes
before the acknowledgement test (42_decoder.md R154, 60_exceptions.md R227). -/
def routeOf (cfg : Cfg) (a c l : Byte) : Route :=
  if known cfg (chanOf a) then
    if c = cfg.ackCtrl ∧ lenOf l = 0 then .ack else .data
  else .drop

end Sys2Proof.Machine
end

