-- ==== Sys2Proof/Machine/Ops.lean ====
section
/-! DEFINITION. The named operations over the state: the reassembly buffer, the registry, outputs, refusals, the
decoder's steps (with resynchronisation, the nearest the core has to taking an exception, 60_exceptions.md R222, R223),
and the running of begun calls. -/

namespace Sys2Proof.Machine

/-! ## The reassembly buffer (20_memory.md R60, R61) -/

/-- What an unlisted address reads as. DESIGN CHOICE (log 4). -/
def unlisted : Byte := 0

/-- The octet at an address. -/
def Memory.read : Memory → Nat → Byte
  | [], _ => unlisted
  | (k, v) :: m, a => if k = a then v else Memory.read m a

/-- Cells with `b` at an address below all of theirs; nothing is listed when `b` is what an unlisted address reads as. -/
def Memory.put (m : Memory) (a : Nat) (b : Byte) : Memory := if b = unlisted then m else (a, b) :: m

/-- Store an octet, keeping the canonical form. -/
def Memory.write : Memory → Nat → Byte → Memory
  | [], a, b => Memory.put [] a b
  | (k, v) :: m, a, b =>
    if a < k then Memory.put ((k, v) :: m) a b
    else if a = k then Memory.put m a b
    else (k, v) :: Memory.write m a b

/-- Store a byte string from an address up. -/
def Memory.writeBytes : Memory → Nat → Bytes → Memory
  | m, _, [] => m
  | m, a, b :: bs => Memory.writeBytes (Memory.write m a b) (a + 1) bs

/-- Read `n` octets from an address up. -/
def Memory.readBytes (m : Memory) (a n : Nat) : Bytes := (List.range n).map fun j => Memory.read m (a + j)

/-- Strictly rising addresses, all at least `lo`, no cell equal to what an unlisted address reads as. -/
def Memory.wfFrom : Nat → Memory → Bool
  | _, [] => true
  | lo, (k, v) :: m => decide (lo ≤ k) && v != unlisted && Memory.wfFrom (k + 1) m

/-- The canonical form. -/
def Memory.wf (m : Memory) : Bool := Memory.wfFrom 0 m

/-- `MemWrite(rbuf, a, n, s)`: none where `a + n <= 127` fails (20_memory.md R61). -/
def memWrite (m : Memory) (a : Nat) (s : Bytes) : Option Memory :=
  if a + s.length ≤ Config.rbufCap then some (m.writeBytes a s) else none

/-- `MemRead(rbuf, 0, n)`: none where `n <= 127` fails (20_memory.md R61). -/
def memRead (m : Memory) (n : Nat) : Option Bytes :=
  if n ≤ Config.rbufCap then some (m.readBytes 0 n) else none

/-- `hdr[i] <- b`; none outside `hdr[0..5]` (10_state.md R24). -/
def Hdr.put (h : Hdr) (i : Nat) (b : Byte) : Option Hdr :=
  match i with
  | 0 => some { h with h0 := b }
  | 1 => some { h with h1 := b }
  | 2 => some { h with h2 := b }
  | 3 => some { h with h3 := b }
  | 4 => some { h with h4 := b }
  | 5 => some { h with h5 := b }
  | _ => none

/-! ## Updates of the state -/

/-- `Emit(e)` (00_scope.md R12). -/
def State.emit (s : State) (e : Event) : State := { s with events := s.events ++ [e] }

/-- `diag(d)` (60_exceptions.md R221). -/
def State.note (s : State) (d : Diag) : State := { s with diags := s.diags ++ [d] }

/-- Give a result back to a caller (10_state.md R39(c)). -/
def State.retTo (s : State) (c : Caller) (v : Value) : State := { s with results := s.results ++ [⟨c, v⟩] }

/-- Give a result back to the caller whose call is being made. -/
def State.ret (s : State) (v : Value) : State := s.retTo s.caller v

/-- Make a call on the transport (60_exceptions.md R231). -/
def State.portCall (s : State) (p : PortCall) : State := { s with portCalls := s.portCalls ++ [p] }

/-- Put octets on the outbound wire (20_memory.md R60). -/
def State.onWire (s : State) (bs : Bytes) : State := { s with wire := s.wire ++ bs }

/-- Replace the cursor. -/
def State.setCur (s : State) (cur : Cursor) : State := { s with cur := cur }

/-- `rx_busy <- v` (10_state.md R35). -/
def State.setBusy (s : State) (v : Bool) : State := { s with rxBusy := v }

/-- `txlock <- v` (20_memory.md R73). -/
def State.setLock (s : State) (v : TxLock) : State := { s with txlock := v }

/-- `ack_reg <- v` (10_state.md R32). -/
def State.setAck (s : State) (v : Option Nat) : State := { s with ackReg := v }

/-- Which channel's callback is running inside RX_CHUNK (70_reset_and_hazards.md R267). -/
def State.setCallback (s : State) (v : Option Nat) : State := { s with callback := v }

/-- The answers of the transport that are left. -/
def State.setReplies (s : State) (rs : List TxReply) : State := { s with replies := rs }

/-- The calls that have begun and not returned. -/
def State.setInflight (s : State) (ts : List Task) : State := { s with inflight := ts }

/-- A begun call that has not returned: it stands before the older ones, so that it is its caller's innermost. -/
def State.park (s : State) (t : Task) : State := s.setInflight (t :: s.inflight)

/-- Who makes the next call. -/
def State.setCaller (s : State) (c : Caller) : State := { s with caller := c }

/-! ## The registry (10_state.md R30, R31) -/

/-- The slot of a channel id; the id itself for 0..63. -/
def slot (ch : Nat) : Fin Config.numIds := Fin.ofNat Config.numIds ch

/-- `cb[ch]`. -/
def State.cbAt (s : State) (ch : Nat) : Option Handle := s.cb[slot ch]

/-- `cb[ch] <- h` (43_registry.md R200). -/
def State.setCb (s : State) (ch : Nat) (h : Handle) : State := { s with cb := s.cb.set (slot ch) (some h) }

/-- `open[ch]`. -/
def State.openAt (s : State) (ch : Nat) : Bool := s.opened[slot ch]

/-- `open[ch] <- true` (43_registry.md R202). -/
def State.setOpened (s : State) (ch : Nat) : State := { s with opened := s.opened.set (slot ch) true }

/-- `DISPATCH(ch, bs)` inside the decoder (43_registry.md R201): the callback is invoked, or the octets are dropped. -/
def dispatch (ch : Nat) (bs : Bytes) (s : State) : State :=
  if known s.cfg ch then
    match s.cbAt ch with
    | none => s.note (.noCallback ch)
    | some h => (s.emit (.deliver ch h bs)).setCallback (some ch)
  else s.note (.unknownChannel ch)

/-! ## Checks before a call's work (60_exceptions.md R225, R227) -/

/-- Refuse after teardown, and otherwise go on. -/
def whenAlive (s : State) (k : Result) : Result :=
  match s.life with
  | .tornDown => .refused .afterTeardown
  | .alive => k

/-- Refuse after teardown, then on a channel above `N_DATA`, and otherwise go on. -/
def onChannel (ch : Nat) (s : State) (k : Result) : Result :=
  whenAlive s (if known s.cfg ch then k else .refused .channelRange)

/-! ## Resynchronisation (60_exceptions.md R222, R223) -/

/-- Entry: nothing is saved, the partial frame is lost, and the cursor goes to RECOVER (60_exceptions.md R222). -/
def resync (d : Diag) (s : State) : State :=
  (s.setCur { s.cur with st := .recover, cnt := 0, rlen := 0 }).note d

/-- A marker is taken for a frame's opening marker: from INIT (42_decoder.md R151), and the exit from RECOVER
(42_decoder.md R160, 60_exceptions.md R223). -/
def openFrame (s : State) : State := s.setCur { s.cur with st := .header, cnt := 1 }

/-! ## The decoder's steps (42_decoder.md R151 to R160) -/

/-- `Route()` of the frame being parsed (42_decoder.md R154). -/
def route (s : State) : Route := routeOf s.cfg s.cur.hdr.h1 s.cur.hdr.h2 s.cur.hdr.h3

/-- `HeaderDone()` (42_decoder.md R153). -/
def headerDone (s : State) : State :=
  let plen := lenOf s.cur.hdr.h3
  let s' := s.setCur { s.cur with
    ch := chanOf s.cur.hdr.h1, kind := s.cur.hdr.h2, rem := plen, rlen := 0
    st := if plen = 0 then .footer else .payload }
  if route s = .drop then s'.note (.unknownChannel (chanOf s.cur.hdr.h1)) else s'

/-- `FrameEnd()`, acceptance (42_decoder.md R159), after the frame's effect. -/
def closeFrame (s : State) : State := s.setCur { s.cur with st := .init, cnt := 0, rlen := 0 }

/-- `FrameEnd()`, acceptance (42_decoder.md R159). -/
def acceptFrame (s : State) : Except Fault State :=
  match route s with
  | .ack => .ok (closeFrame ((s.setAck (some s.cur.ch)).emit (.ack s.cur.ch)))
  | .drop => .ok (closeFrame s)
  | .data =>
    if s.cfg.defrag && decide (0 < s.cur.rlen) then
      match memRead s.cur.rbuf s.cur.rlen with
      | some bs => .ok (closeFrame (dispatch s.cur.ch bs s))
      | none => .error (.bufferBounds 0 s.cur.rlen)
    else .ok (closeFrame s)

/-- `FrameEnd()`: the end marker, then the FCS when it is verified, then acceptance (42_decoder.md R157 to R159). -/
def frameEnd (s : State) : Except Fault State :=
  if s.cur.hdr.h5 = Config.marker then
    if s.cfg.verifyFcs && !fcsCheck s.cur.hdr.h1 s.cur.hdr.h2 s.cur.hdr.h3 s.cur.hdr.h4 then
      .ok (resync (.fcsMismatch s.cur.hdr.h4) s)
    else acceptFrame s
  else .ok (resync (.noEnd s.cur.hdr.h5) s)

/-- What PayloadStep does with the octets of a slice, by route (42_decoder.md R155). -/
def takePayload (bs : Bytes) (s : State) : Except Fault State :=
  if route s = .data then
    if s.cfg.defrag then
      match memWrite s.cur.rbuf s.cur.rlen bs with
      | some m => .ok (s.setCur { s.cur with rbuf := m, rlen := s.cur.rlen + bs.length })
      | none => .error (.bufferBounds s.cur.rlen bs.length)
    else .ok (dispatch s.cur.ch bs s)
  else .ok s

/-- The count of payload octets left, and the way to FOOTER (42_decoder.md R155). -/
def countPayload (k : Nat) (s : State) : State :=
  s.setCur { s.cur with
    rem := s.cur.rem - k, st := if s.cur.rem - k = 0 then .footer else s.cur.st }

/-- `PayloadStep(bs)` (42_decoder.md R155). -/
def payloadStep (bs : Bytes) (s : State) : Except Fault State :=
  match takePayload bs s with
  | .ok s' => .ok (countPayload bs.length s')
  | .error f => .error f

/-- `hdr[cnt] <- b; cnt <- cnt + 1`, then `k` (42_decoder.md R152, R156). -/
def storeHdr (b : Byte) (s : State) (k : State → Except Fault State) : Except Fault State :=
  match s.cur.hdr.put s.cur.cnt b with
  | some h => k (s.setCur { s.cur with hdr := h, cnt := s.cur.cnt + 1 })
  | none => .error (.headerBounds s.cur.cnt)

/-- `ByteStep(b)` by state (42_decoder.md R151, R152, R156, R160); in PAYLOAD, the payload step of one octet. -/
def byteStep (b : Byte) (s : State) : Except Fault State :=
  match s.cur.st with
  | .init => if b = Config.marker then .ok (openFrame s) else .ok (resync (.noStart b) s)
  | .header =>
    if s.cur.cnt = 1 ∧ b = Config.marker then .ok s
    else storeHdr b s fun s' => .ok (if s'.cur.cnt = 4 then headerDone s' else s')
  | .payload => payloadStep [b] s
  | .footer => storeHdr b s fun s' => if s'.cur.cnt = 6 then frameEnd s' else .ok s'
  | .recover => if b = Config.marker then .ok (openFrame s) else .ok s

/-! ## Begun calls and their moves -/

/-- The answer of a move that makes a decoder step and goes on with task `t`. -/
def onward (t : Task) (r : Except Fault State) : Moved :=
  match r with
  | .ok s => .goesOn t s
  | .error f => .fault f

/-- One move of an RX_CHUNK call (42_decoder.md R150): a running callback returns; or the loop's next payload step or
byte step is made; or, the chunk consumed, the call returns whether more data is needed (R161). -/
def rxMove (c : Caller) (rest : Bytes) (s : State) : Moved :=
  match s.callback with
  | some _ => .goesOn (.rx c rest) (s.setCallback none)
  | none =>
    match rest with
    | [] => .returned ((s.setBusy false).retTo c (.bool (atBoundary s.cur.st)))
    | b :: bs =>
      if s.cur.st = .payload then
        let k := min s.cur.rem (bs.length + 1)
        onward (.rx c ((b :: bs).drop k)) (payloadStep ((b :: bs).take k) s)
      else onward (.rx c bs) (byteStep b s)

/-- The end of a writer call: the lock is released and the caller gets the result (41_writer.md R130, R133, R136). -/
def txReturn (job : TxJob) (v : Value) (s : State) : State := (s.setLock .free).retTo job.caller v

/-- One move of a writer call (41_writer.md R130, R133, R136; 20_memory.md R73): the lock is acquired, or awaited; the
next TxWrite is made, or, none being left, the call returns; inside a TxWrite, the transport's answer is taken, or
awaited. A failure ends the call: nothing more is written. -/
def txMove (job : TxJob) (s : State) : Moved :=
  match job.phase with
  | .waiting =>
    match s.txlock with
    | .free => .goesOn (.tx { job with phase := .ready }) (s.setLock (.held job.caller))
    | .held _ => .blocked
  | .ready =>
    match job.todo with
    | [] => .returned (txReturn job (.count job.total) s)
    | w :: _ => .goesOn (.tx { job with phase := .inWrite }) (s.portCall (.write w))
  | .inWrite =>
    match job.todo, s.replies with
    | [], _ => .returned (txReturn job (.count job.total) s)
    | _ :: _, [] => .blocked
    | w :: ws, r :: rs =>
      if r.ret = some w.length then
        .goesOn (.tx { job with phase := .ready, todo := ws }) ((s.setReplies rs).onWire w)
      else
        .returned (txReturn job .ioError (((s.setReplies rs).onWire (w.take r.put)).note .txIoError))

/-- One move of a begun call. -/
def moveTask (t : Task) (s : State) : Moved :=
  match t with
  | .rx c rest => rxMove c rest s
  | .tx job => txMove job s

/-- At least as many moves as a begun call can make before it returns or must wait. -/
def taskFuel (t : Task) : Nat :=
  match t with
  | .rx _ rest => 2 * rest.length + 4
  | .tx job => 2 * job.todo.length + 3

/-- Make moves of a begun call until it returns, or must wait and then stands among the calls in flight. -/
def runTask : Nat → Task → State → Result
  | 0, t, s => .next (s.park t)
  | n + 1, t, s =>
    match moveTask t s with
    | .blocked => .next (s.park t)
    | .fault f => .fault f
    | .returned s' => .next s'
    | .goesOn t' s' => runTask n t' s'

/-- Run a begun call. -/
def runBegun (b : Begun) : Result :=
  match b with
  | .refused q => .refused q
  | .begun t s => runTask (taskFuel t) t s

/-- Leave a begun call in flight. -/
def parkBegun (b : Begun) : Result :=
  match b with
  | .refused q => .refused q
  | .begun t s => .next (s.park t)

/-- The beginning of an RX_CHUNK call (42_decoder.md R150, 60_exceptions.md R227). -/
def beginRx (c : Bytes) (s : State) : Begun :=
  match s.life with
  | .tornDown => .refused .afterTeardown
  | .alive => if s.rxBusy then .refused .rxOverlap else .begun (.rx s.caller c) (s.setBusy true)

/-- The beginning of a writer call on channel `ch` with the TxWrite strings `ws` and the count `n` returned on success
(41_writer.md R130, R136). -/
def beginTx (ch : Nat) (ws : List Bytes) (n : Nat) (s : State) : Begun :=
  match s.life with
  | .tornDown => .refused .afterTeardown
  | .alive =>
    if known s.cfg ch then .begun (.tx { caller := s.caller, phase := .waiting, todo := ws, total := n }) s
    else .refused .channelRange

/-- The beginning of an RX_CHUNK call whose chunk is one frame with control octet `c` (log 17). -/
def beginFrame (c : Byte) (f : Frame) (s : State) : Begun := beginRx (frameBytes c f) s

/-! ## The innermost call of a caller -/

/-- Whose call a task is. -/
def Task.callerOf (t : Task) : Caller :=
  match t with
  | .rx c _ => c
  | .tx job => job.caller

/-- Whether a task is a writer call (41_writer.md). -/
def Task.isTx (t : Task) : Bool :=
  match t with
  | .rx _ _ => false
  | .tx _ => true

/-- Whether a task holds `txlock`. -/
def Task.holdsLock (t : Task) : Bool :=
  match t with
  | .rx _ _ => false
  | .tx job => job.phase != .waiting

/-- The tasks before the innermost one of caller `c`, that one, and those after it. -/
def splitAt (c : Caller) : List Task → Option (List Task × Task × List Task)
  | [] => none
  | t :: ts =>
    if t.callerOf = c then some ([], t, ts)
    else match splitAt c ts with
      | none => none
      | some (pre, u, post) => some (t :: pre, u, post)

/-- The innermost call of caller `c` makes one move. Nothing changes when it must wait, or when `c` has no call in
flight (log 22). -/
def advance (c : Caller) (s : State) : Result :=
  match splitAt c s.inflight with
  | none => .next s
  | some (pre, t, post) =>
    match moveTask t s with
    | .blocked => .next s
    | .fault f => .fault f
    | .returned s' => .next (s'.setInflight (pre ++ post))
    | .goesOn t' s' => .next (s'.setInflight (pre ++ t' :: post))

end Sys2Proof.Machine
end

