-- ==== Sys2Proof/Machine/Codec.lean ====
section
/-! DEFINITION. The codec operations (40_codec.md R110 to R116): pure functions whose result is their only effect. The
value depends on no core state (R116); the call, like every operation but ACK_READ, is refused after teardown, a test
that comes before every other (43_registry.md R208, 60_exceptions.md R225, R227; log 6). -/

namespace Sys2Proof.Machine

/-- CRC8 (40_codec.md R110). -/
def execCrc8 (d : Bytes) (s : State) : Result := whenAlive s (.next (s.ret (.octet (crc8 d))))

/-- FCS (40_codec.md R111). -/
def execFcs (a c l : Byte) (s : State) : Result := whenAlive s (.next (s.ret (.octet (fcsOf a c l))))

/-- ENCODE_HEADER (40_codec.md R112). -/
def execEncodeHeader (ch : Nat) (kind : Byte) (pf : Bool) (n : Nat) (s : State) : Result :=
  whenAlive s
    (if ch ≤ Config.maxChannel ∧ n ≤ Config.maxLen then
      .next (s.ret (.octets (Header.octets (encodeHeader ch kind pf n))))
    else .refused .codecDomain)

/-- ENCODE_TRAILER (40_codec.md R113). -/
def execEncodeTrailer (h : Header) (s : State) : Result := whenAlive s (.next (s.ret (.octets (encodeTrailer h))))

/-- DECODE_HEADER (40_codec.md R114). -/
def execDecodeHeader (h : Header) (s : State) : Result := whenAlive s (.next (s.ret (decodeHeader h)))

/-- FCS_CHECK (40_codec.md R115). -/
def execFcsCheck (a c l f : Byte) (s : State) : Result := whenAlive s (.next (s.ret (.bool (fcsCheck a c l f))))

end Sys2Proof.Machine
end

