-- ==== Sys2Proof/Machine/Frames.lean ====
section
/-! DEFINITION. The frames as instructions (30_encoding.md R80 to R90, 42_decoder.md R150 to R160): the frame arrives as
one inbound chunk and the decoder consumes its octets (log 17). The control octet chooses only the route (R88, R154). -/

namespace Sys2Proof.Machine

/-- A frame of kind RR arrives (opcode_table.json, RR; 42_decoder.md R154). -/
def execRr (pf : Bool) (f : Frame) (s : State) : Result :=
  runBegun (beginFrame (ctrlByte FrameKind.rr.code pf) f s)

/-- A frame of kind UI arrives (opcode_table.json, UI; 42_decoder.md R154). -/
def execUi (pf : Bool) (f : Frame) (s : State) : Result :=
  runBegun (beginFrame (ctrlByte FrameKind.ui.code pf) f s)

/-- A frame of kind RNR arrives (opcode_table.json, RNR; 42_decoder.md R154). -/
def execRnr (pf : Bool) (f : Frame) (s : State) : Result :=
  runBegun (beginFrame (ctrlByte FrameKind.rnr.code pf) f s)

/-- A frame of kind REJ arrives (opcode_table.json, REJ; 42_decoder.md R154). -/
def execRej (pf : Bool) (f : Frame) (s : State) : Result :=
  runBegun (beginFrame (ctrlByte FrameKind.rej.code pf) f s)

/-- A frame of kind DM arrives (opcode_table.json, DM; 42_decoder.md R154). -/
def execDm (pf : Bool) (f : Frame) (s : State) : Result :=
  runBegun (beginFrame (ctrlByte FrameKind.dm.code pf) f s)

/-- A frame of kind SABM arrives (opcode_table.json, SABM; 42_decoder.md R154). -/
def execSabm (pf : Bool) (f : Frame) (s : State) : Result :=
  runBegun (beginFrame (ctrlByte FrameKind.sabm.code pf) f s)

/-- A frame of kind DISC arrives (opcode_table.json, DISC; 42_decoder.md R154). -/
def execDisc (pf : Bool) (f : Frame) (s : State) : Result :=
  runBegun (beginFrame (ctrlByte FrameKind.disc.code pf) f s)

/-- A frame of kind UA arrives (opcode_table.json, UA; 42_decoder.md R154). -/
def execUa (pf : Bool) (f : Frame) (s : State) : Result :=
  runBegun (beginFrame (ctrlByte FrameKind.ua.code pf) f s)

/-- A frame of kind UIH arrives (opcode_table.json, UIH; 42_decoder.md R154). -/
def execUih (pf : Bool) (f : Frame) (s : State) : Result :=
  runBegun (beginFrame (ctrlByte FrameKind.uih.code pf) f s)

/-- A frame with control octet 0x73 and no payload arrives: an acknowledgement when `ACK_CTRL` is 0x73, its default
(opcode_table.json, ACK; 42_decoder.md R154, R159; log 16). -/
def execAck (f : Frame) (s : State) : Result := runBegun (beginFrame Config.ackCtrlDefault f s)

/-- A frame with any other control octet arrives (opcode_table.json, ANY_OTHER_CONTROL; 30_encoding.md R88). -/
def execAnyOtherControl (c : Byte) (f : Frame) (s : State) : Result := runBegun (beginFrame c f s)

end Sys2Proof.Machine
end

