-- ==== Sys2Proof/Machine/Lifecycle.lean ====
section
/-! DEFINITION. START, STOP, TEARDOWN (43_registry.md R206 to R208) and RESET (70_reset_and_hazards.md R260). -/

namespace Sys2Proof.Machine

/-- START (43_registry.md R206): the transport's `start()`, and no change of core state. -/
def execStart (s : State) : Result := whenAlive s (.next (s.portCall .start))

/-- STOP (43_registry.md R207): the transport's `stop()`, and no change of core state. -/
def execStop (s : State) : Result := whenAlive s (.next (s.portCall .stop))

/-- Whether an RX_CHUNK call or a writer call is executing (70_reset_and_hazards.md R268). A writer call that has begun
and waits for the lock is executing too (log 9). -/
def busy (s : State) : Bool := s.rxBusy || s.txlock != .free || s.inflight.any Task.isTx

/-- TEARDOWN (43_registry.md R208, 70_reset_and_hazards.md R268). -/
def execTeardown (s : State) : Result :=
  whenAlive s (if busy s then .refused .teardownBusy else .next { s with life := .tornDown })

/-- `n` free octets, the `d`-th and those after it. -/
def freeOctets (d n : Nat) : Bytes := (List.range n).map fun j => Config.freeOctet (d + j)

/-- A header buffer of free octets (70_reset_and_hazards.md R260: "any octets"). -/
def freeHdr (d : Nat) : Hdr :=
  { h0 := Config.freeOctet d, h1 := Config.freeOctet (d + 1), h2 := Config.freeOctet (d + 2)
    h3 := Config.freeOctet (d + 3), h4 := Config.freeOctet (d + 4), h5 := Config.freeOctet (d + 5) }

/-- A reassembly buffer of free octets (70_reset_and_hazards.md R260: "any octets"). -/
def freeBuffer (d : Nat) : Memory := Memory.writeBytes [] 0 (freeOctets d Config.rbufCap)

/-- How many free octets a RESET draws. -/
def resetDraws : Nat := Config.hdrBuf + Config.rbufCap

/-- A new instance in the place of the old one (70_reset_and_hazards.md R260, R262; log 8): the environment's inputs and
the identity of the caller stay, everything of the instance is new, `hdr` and `rbuf` hold free octets. -/
def rebuild (cfg : Cfg) (s : State) : State :=
  { State.construct cfg with
    cur := { Cursor.reset with hdr := freeHdr s.draws, rbuf := freeBuffer (s.draws + Config.hdrBuf) }
    caller := s.caller, replies := s.replies, agenda := s.agenda, draws := s.draws + resetDraws }

/-- RESET (70_reset_and_hazards.md R260). -/
def execReset (r : CfgRequest) (s : State) : Result :=
  if h : r.nData < Config.numIds then
    .next (rebuild { nData := ⟨r.nData, h⟩, defrag := r.defrag, verifyFcs := r.verifyFcs, ackCtrl := r.ackCtrl } s)
  else .refused .badConfig

end Sys2Proof.Machine
end

