-- ==== Sys2Proof/Machine/Receiver.lean ====
section
/-! DEFINITION. RX_CHUNK (42_decoder.md R150): the decoder consumes one inbound chunk. -/

namespace Sys2Proof.Machine

/-- RX_CHUNK (42_decoder.md R150). -/
def execRxChunk (c : Bytes) (s : State) : Result := runBegun (beginRx c s)

end Sys2Proof.Machine
end

