-- ==== Sys2Proof/Machine/Registry.lean ====
section
/-! DEFINITION. The channel registry and the acknowledgement register (43_registry.md R200 to R205). -/

namespace Sys2Proof.Machine

/-- REGISTER_CALLBACK (43_registry.md R200). -/
def execRegisterCallback (ch : Nat) (h : Handle) (s : State) : Result := onChannel ch s (.next (s.setCb ch h))

/-- DISPATCH made as a call (43_registry.md R201): the callback has returned when the call returns (log 24); refused
after teardown, since "no callback fires afterwards" (43_registry.md R208; log 7). -/
def execDispatch (ch : Nat) (bs : Bytes) (s : State) : Result :=
  whenAlive s (.next ((dispatch ch bs s).setCallback s.callback))

/-- SET_OPEN (43_registry.md R202). -/
def execSetOpen (ch : Nat) (s : State) : Result := onChannel ch s (.next (s.setOpened ch))

/-- GET_OPEN (43_registry.md R203). -/
def execGetOpen (ch : Nat) (s : State) : Result := onChannel ch s (.next (s.ret (.bool (s.openAt ch))))

/-- What ACK_READ returns (43_registry.md R204). -/
def ackValue (s : State) : Value :=
  match s.life with
  | .tornDown => .stopped
  | .alive => .ack s.ackReg

/-- ACK_READ (43_registry.md R204): the one engine operation that is not refused after teardown. -/
def execAckRead (s : State) : Result := .next (s.ret (ackValue s))

/-- ACK_CLEAR (43_registry.md R205). -/
def execAckClear (s : State) : Result := whenAlive s (.next (s.setAck none))

end Sys2Proof.Machine
end

