-- ==== Sys2Proof/Machine/Writer.lean ====
section
/-! DEFINITION. The writer operations (41_writer.md R130 to R137). The call runs until it returns, or until it must wait
for `txlock` or for the transport's answer; it then stands among the calls in flight (log 10). -/

namespace Sys2Proof.Machine

/-- The beginning of WRITE (41_writer.md R130). -/
def beginWrite (ch : Nat) (p : Bytes) (s : State) : Begun := beginTx ch (writeStrings ch p) p.length s

/-- WRITE (41_writer.md R130). -/
def execWrite (ch : Nat) (p : Bytes) (s : State) : Result := runBegun (beginWrite ch p s)

/-- The beginning of SEND_CTRL (41_writer.md R136). -/
def beginSendCtrl (ch : Nat) (kind : Byte) (pf : Bool) (s : State) : Begun := beginTx ch (ctrlStrings ch kind pf) 0 s

/-- SEND_CTRL (41_writer.md R136). -/
def execSendCtrl (ch : Nat) (kind : Byte) (pf : Bool) (s : State) : Result := runBegun (beginSendCtrl ch kind pf s)

end Sys2Proof.Machine
end

