-- ==== Sys2Proof/Machine/Dispatch.lean ====
section
/-! DEFINITION. What each instruction does: one arm per constructor, each a call of the instruction's meaning. -/

namespace Sys2Proof.Machine

/-- The meaning of an instruction in a state; the call is made by `s.caller`. -/
def exec (i : Instr) (s : State) : Host.Outcome State Fault Refusal :=
  match i with
  | .rr pf f => Sys2Proof.Machine.execRr pf f s
  | .ui pf f => Sys2Proof.Machine.execUi pf f s
  | .rnr pf f => Sys2Proof.Machine.execRnr pf f s
  | .rej pf f => Sys2Proof.Machine.execRej pf f s
  | .dm pf f => Sys2Proof.Machine.execDm pf f s
  | .sabm pf f => Sys2Proof.Machine.execSabm pf f s
  | .disc pf f => Sys2Proof.Machine.execDisc pf f s
  | .ua pf f => Sys2Proof.Machine.execUa pf f s
  | .uih pf f => Sys2Proof.Machine.execUih pf f s
  | .ack f => Sys2Proof.Machine.execAck f s
  | .anyOtherControl c f => Sys2Proof.Machine.execAnyOtherControl c f s
  | .crc8 d => Sys2Proof.Machine.execCrc8 d s
  | .fcs a c l => Sys2Proof.Machine.execFcs a c l s
  | .encodeHeader ch kind pf n => Sys2Proof.Machine.execEncodeHeader ch kind pf n s
  | .encodeTrailer h => Sys2Proof.Machine.execEncodeTrailer h s
  | .decodeHeader h => Sys2Proof.Machine.execDecodeHeader h s
  | .fcsCheck a c l f => Sys2Proof.Machine.execFcsCheck a c l f s
  | .write ch p => Sys2Proof.Machine.execWrite ch p s
  | .sendCtrl ch kind pf => Sys2Proof.Machine.execSendCtrl ch kind pf s
  | .rxChunk c => Sys2Proof.Machine.execRxChunk c s
  | .registerCallback ch h => Sys2Proof.Machine.execRegisterCallback ch h s
  | .dispatch ch bs => Sys2Proof.Machine.execDispatch ch bs s
  | .setOpen ch => Sys2Proof.Machine.execSetOpen ch s
  | .getOpen ch => Sys2Proof.Machine.execGetOpen ch s
  | .ackRead => Sys2Proof.Machine.execAckRead s
  | .ackClear => Sys2Proof.Machine.execAckClear s
  | .start => Sys2Proof.Machine.execStart s
  | .stop => Sys2Proof.Machine.execStop s
  | .teardown => Sys2Proof.Machine.execTeardown s
  | .reset r => Sys2Proof.Machine.execReset r s

end Sys2Proof.Machine
end

