-- ==== Sys2Proof/Machine/Moves.lean ====
section
/-! DEFINITION. The moves of the environment (60_exceptions.md R237; log 1, log 12): beginning a call without running
it, the handshake agent of 60_exceptions.md R233, and what each move does. -/

namespace Sys2Proof.Machine

/-- The beginning of a call that can be in flight: an arriving frame, RX_CHUNK, WRITE, SEND_CTRL; none for a call that
is made and returns in one move. -/
def begunOf (i : Instr) (s : State) : Option Begun :=
  match i with
  | .rr pf f   => some (beginFrame (ctrlByte FrameKind.rr.code pf) f s)
  | .ui pf f   => some (beginFrame (ctrlByte FrameKind.ui.code pf) f s)
  | .rnr pf f  => some (beginFrame (ctrlByte FrameKind.rnr.code pf) f s)
  | .rej pf f  => some (beginFrame (ctrlByte FrameKind.rej.code pf) f s)
  | .dm pf f   => some (beginFrame (ctrlByte FrameKind.dm.code pf) f s)
  | .sabm pf f => some (beginFrame (ctrlByte FrameKind.sabm.code pf) f s)
  | .disc pf f => some (beginFrame (ctrlByte FrameKind.disc.code pf) f s)
  | .ua pf f   => some (beginFrame (ctrlByte FrameKind.ua.code pf) f s)
  | .uih pf f  => some (beginFrame (ctrlByte FrameKind.uih.code pf) f s)
  | .ack f     => some (beginFrame Config.ackCtrlDefault f s)
  | .anyOtherControl c f => some (beginFrame c f s)
  | .write ch p => some (beginWrite ch p s)
  | .sendCtrl ch kind pf => some (beginSendCtrl ch kind pf s)
  | .rxChunk c => some (beginRx c s)
  | .crc8 _ => none
  | .fcs _ _ _ => none
  | .encodeHeader _ _ _ _ => none
  | .encodeTrailer _ => none
  | .decodeHeader _ => none
  | .fcsCheck _ _ _ _ => none
  | .registerCallback _ _ => none
  | .dispatch _ _ => none
  | .setOpen _ => none
  | .getOpen _ => none
  | .ackRead => none
  | .ackClear => none
  | .start => none
  | .stop => none
  | .teardown => none
  | .reset _ => none

/-- A call is begun and nothing more; a call that cannot be in flight is made whole. -/
def beginCall (i : Instr) (s : State) : Result :=
  match begunOf i s with
  | some b => parkBegun b
  | none => exec i s

/-! ## The handshake agent (60_exceptions.md R233, R234; log 21) -/

/-- A result of a writer call: `Ok(n)` or `IoError` (41_writer.md R130, R136). -/
def Value.ofWriter (v : Value) : Bool :=
  match v with
  | .count _ => true
  | .ioError => true
  | _ => false

/-- The result of the writer call of caller `c` that returned last. -/
def lastSent (c : Caller) (s : State) : Option Value :=
  (s.results.reverse.find? fun r => r.caller == c && r.value.ofWriter).map Returned.value

/-- Whether a writer call of caller `c` has not returned. -/
def sending (c : Caller) (s : State) : Bool := s.inflight.any fun t => t.isTx && t.callerOf == c

/-- Go on with the agent at `hs` when the core's operation answers a next state. -/
def andAgent (r : Result) (hs : Option Handshake) (res : Option Bool) : Result :=
  match r with
  | .next s => .next { s with handshake := hs, openResult := res }
  | .fault f => .fault f
  | .refused q => .refused q

/-- The agent after an ACK_READ that returned `v` (60_exceptions.md R233): the channel's acknowledgement is there; a
stop is requested; another try; the bound is reached. The second component is the result of OPEN() when it ends. -/
def afterPoll (hs : Handshake) (v : Value) : Option Handshake × Option Bool :=
  match v with
  | .stopped => (none, some false)
  | v =>
    if v = .ack (some hs.ch) then (some { hs with phase := .mark }, none)
    else if hs.retryBound ≤ hs.tries + 1 then (none, some false)
    else (some { hs with tries := hs.tries + 1 }, none)

/-- The agent after SET_OPEN of its channel: the next channel, or success after channel `N_DATA`. -/
def afterMark (hs : Handshake) (nData : Nat) : Option Handshake × Option Bool :=
  if nData ≤ hs.ch then (none, some true) else (some { hs with ch := hs.ch + 1, tries := 0, phase := .clear }, none)

/-- One move of the agent `hs`: the next operation of its loop (60_exceptions.md R233). In phase `sent` it waits for its
SEND_CTRL to return. DESIGN CHOICE (log 21): OPEN() may be run by a caller that has another call in flight, for instance
from its callback inside RX_CHUNK; the agent then waits for writer calls of that caller only, and polls and times out
while the RX_CHUNK is still in flight. -/
def handshakeMove (hs : Handshake) (s : State) : Result :=
  let s := s.setCaller hs.caller
  match hs.phase with
  | .clear => andAgent (exec .ackClear s) (some { hs with phase := .send }) none
  | .send => andAgent (exec (.sendCtrl hs.ch hs.sabmCtrl true) s) (some { hs with phase := .sent }) none
  | .sent =>
    if sending hs.caller s then .next s
    else if lastSent hs.caller s = some .ioError then .next { s with handshake := none, openResult := some false }
    else .next { s with handshake := some { hs with tries := 0, phase := .poll }, openResult := none }
  | .poll => andAgent (exec .ackRead s) (afterPoll hs (ackValue s)).1 (afterPoll hs (ackValue s)).2
  | .mark => andAgent (exec (.setOpen hs.ch) s) (afterMark hs s.cfg.nData.val).1 (afterMark hs s.cfg.nData.val).2

/-- One move of the handshake agent; nothing when it does not run. -/
def openTick (s : State) : Result :=
  match s.handshake with
  | none => .next s
  | some hs => handshakeMove hs s

/-- `OPEN()` is called (60_exceptions.md R233). -/
def openBegin (c : Caller) (sabmCtrl : Byte) (retryBound : Nat) (s : State) : State :=
  { s with
    handshake := some { caller := c, sabmCtrl := sabmCtrl, retryBound := retryBound, ch := 0, tries := 0, phase := .clear }
    openResult := none }

/-! ## Moves -/

/-- What a move of the environment does. -/
def perform (m : Move) (s : State) : Result :=
  match m with
  | .arrive c chunk => exec (fetch chunk) (s.setCaller c)
  | .call c i => exec i (s.setCaller c)
  | .begin c i => beginCall i (s.setCaller c)
  | .advance c => advance c s
  | .reply r => .next (s.setReplies (s.replies ++ [r]))
  | .openBegin c sabmCtrl retryBound => .next (openBegin c sabmCtrl retryBound s)
  | .openTick => openTick s

/-- The move is taken from the agenda before it is made. -/
def stepWith (m : Move) (ms : List Move) (s : State) : Result := perform m { s with agenda := ms }

/-- The arrival of a table word's frame, placed before every other move. -/
def placeWord (nbits w : Nat) (s : State) : State :=
  { s with agenda := .arrive s.caller (tableWire nbits w) :: s.agenda }

end Sys2Proof.Machine
end

