-- ==== Sys2Proof/Safety.lean ====
section
/-! DEFINITION. What a good state is (10_state.md R29 and the bookkeeping of calls, lock and registry), what a safe run
is, and the terms in which claims speak of frames, events and calls. -/

namespace Sys2Proof.Machine

/-! ## The invariant -/

/-- The payload of the frame being parsed is gathered in the reassembly buffer: `DEFRAG` and route `DATA`
(10_state.md R29). -/
abbrev Gathers (cfg : Cfg) (h : Hdr) : Prop := cfg.defrag = true ∧ routeOf cfg h.h1 h.h2 h.h3 = .data

/-- The cursor in PAYLOAD (10_state.md R29). -/
abbrev PayloadInv (cfg : Cfg) (c : Cursor) : Prop :=
  c.cnt = 4 ∧ 1 ≤ c.rem ∧ c.ch = chanOf c.hdr.h1 ∧ c.kind = c.hdr.h2 ∧
    (if Gathers cfg c.hdr then c.rem + c.rlen = lenOf c.hdr.h3 else c.rlen = 0)

/-- The cursor in FOOTER (10_state.md R29). -/
abbrev FooterInv (cfg : Cfg) (c : Cursor) : Prop :=
  4 ≤ c.cnt ∧ c.cnt ≤ 5 ∧ c.rem = 0 ∧ c.ch = chanOf c.hdr.h1 ∧ c.kind = c.hdr.h2 ∧
    (if Gathers cfg c.hdr then c.rlen = lenOf c.hdr.h3 else c.rlen = 0)

/-- The ranges of the cursor's fields (10_state.md R25, R27, R28) and the buffer's canonical form. -/
abbrev CursorRanges (c : Cursor) : Prop :=
  c.rlen ≤ 127 ∧ c.rem ≤ 127 ∧ c.ch ≤ 63 ∧
  c.rbuf.wf = true ∧ c.rbuf.all (fun cell => decide (cell.1 < Config.rbufCap)) = true

/-- The cursor invariants of 10_state.md R29. -/
abbrev CursorInv (cfg : Cfg) (c : Cursor) : Prop :=
  (c.st = .init → c.cnt = 0 ∧ c.rlen = 0) ∧
  (c.st = .header → 1 ≤ c.cnt ∧ c.cnt ≤ 3 ∧ c.rlen = 0) ∧
  (c.st = .payload → PayloadInv cfg c) ∧
  (c.st = .footer → FooterInv cfg c) ∧
  (c.st = .recover → c.cnt = 0 ∧ c.rlen = 0) ∧
  CursorRanges c

/-- Whether a task is an RX_CHUNK call. -/
def Task.isRx (t : Task) : Bool :=
  match t with
  | .rx _ _ => true
  | .tx _ => false

/-- A writer call inside a TxWrite has a string it is writing. -/
def Task.sound (t : Task) : Bool :=
  match t with
  | .rx _ _ => true
  | .tx job => job.phase != .inWrite || !job.todo.isEmpty

/-- The callers of the calls in flight that hold `txlock`. -/
def lockHolders (ts : List Task) : List Caller := (ts.filter Task.holdsLock).map Task.callerOf

/-- Who holds the lock, as a list. -/
def TxLock.holders (l : TxLock) : List Caller :=
  match l with
  | .free => []
  | .held c => [c]

/-- The bookkeeping of calls: `rx_busy` exactly while an RX_CHUNK call is in flight (10_state.md R35), `txlock` held
exactly by the one writer call that acquired it (R33), a callback running only inside RX_CHUNK, no call in flight after
teardown (43_registry.md R208). -/
abbrev CallsInv (s : State) : Prop :=
  (s.inflight.filter Task.isRx).length = (if s.rxBusy = true then 1 else 0) ∧
  lockHolders s.inflight = s.txlock.holders ∧
  s.inflight.all Task.sound = true ∧
  (s.callback.isSome = true → s.rxBusy = true) ∧
  (s.life = .tornDown → s.inflight = [])

/-- The registry and the acknowledgement register hold backed channel ids only (10_state.md R30 to R32, 20_memory.md
R68). -/
abbrev RegistryInv (s : State) : Prop :=
  (∀ c : Fin Config.numIds, s.cfg.nData < c → s.cb[c] = none ∧ s.opened[c] = false) ∧
  s.ackReg.all (known s.cfg) = true

/-- The handshake agent works on a known channel and has tries left (60_exceptions.md R233). -/
abbrev HandshakeInv (s : State) : Prop :=
  s.handshake.all (fun hs => known s.cfg hs.ch && decide (hs.tries < max 1 hs.retryBound)) = true

/-- The invariant of the machine. -/
abbrev Inv (s : State) : Prop := CursorInv s.cfg s.cur ∧ CallsInv s ∧ RegistryInv s ∧ HandshakeInv s

/-- A run of `n` steps that meets no fault: each step answers a next state or a refusal. -/
def Safe : Nat → State → Prop
  | 0, _ => True
  | n + 1, s =>
    match step s with
    | .next t => Safe n t
    | .fault _ => False
    | .refused _ => True

/-! ## Terms of the claims -/

/-- The frame that the writer sends: address and length with their fixed bits set, the FCS of its header
(30_encoding.md R80 to R84, 41_writer.md R132, R136). -/
def sentFrame (ch : Nat) (ctrl : Byte) (payload : Bytes) : Frame :=
  { ch := BitVec.ofNat 6 ch, addrLow := 3, lenLow := 1, payload := payload
    fcs := fcsOf (BitVec.ofNat 8 (4 * ch + 3)) ctrl (BitVec.ofNat 8 (2 * payload.length + 1)) }

/-- The TxWrite strings of a writer operation (41_writer.md R130, R136) with the count it returns on success: `ws` and
`n` are those of `i` on channel `ch`. -/
inductive WriterCall : Instr → Nat → List Bytes → Nat → Prop where
  | write (ch : Nat) (p : Bytes) : WriterCall (.write ch p) ch (writeStrings ch p) p.length
  | sendCtrl (ch : Nat) (kind : Byte) (pf : Bool) : WriterCall (.sendCtrl ch kind pf) ch (ctrlStrings ch kind pf) 0

/-- The transport's answers `rs` accept the strings `ws`, each whole and in order (41_writer.md R133). -/
def Accepts (rs : List TxReply) (ws : List Bytes) : Prop := rs.map TxReply.ret = ws.map fun w => some w.length

/-- The cursor is where a frame may begin (42_decoder.md R167). -/
def readyForFrame (c : Cursor) : Prop := c.st = .init ∨ c.st = .recover ∨ (c.st = .header ∧ c.cnt = 1)

/-- The callback of a channel is invoked with octets, or the octets are dropped: the event, if any (43_registry.md R201). -/
def deliverEvents (s : State) (ch : Nat) (bs : Bytes) : List Event :=
  if bs = [] then [] else
    match s.cbAt ch with
    | some h => [.deliver ch h bs]
    | none => []

/-- The diagnostic entry of dropped octets, if any (43_registry.md R201). -/
def dropDiags (s : State) (ch : Nat) (bs : Bytes) : List Diag :=
  if bs = [] then [] else
    match s.cbAt ch with
    | some _ => []
    | none => [.noCallback ch]

/-- What one state leaves of another when only the decoder ran in between: everything but the cursor, `ack_reg`, the
events, the diagnostic trace and the results (10_state.md R21, 42_decoder.md R150). -/
structure DecoderFrame (s t : State) : Prop where
  cfg        : t.cfg = s.cfg
  cb         : t.cb = s.cb
  opened     : t.opened = s.opened
  txlock     : t.txlock = s.txlock
  life       : t.life = s.life
  rxBusy     : t.rxBusy = s.rxBusy
  callback   : t.callback = s.callback
  inflight   : t.inflight = s.inflight
  portCalls  : t.portCalls = s.portCalls
  wire       : t.wire = s.wire
  caller     : t.caller = s.caller
  replies    : t.replies = s.replies
  agenda     : t.agenda = s.agenda
  handshake  : t.handshake = s.handshake
  openResult : t.openResult = s.openResult
  draws      : t.draws = s.draws

/-- The octets delivered to a channel, over all its Deliver events. -/
def deliveredTo (ch : Nat) (es : List Event) : Bytes :=
  es.flatMap fun e =>
    match e with
    | .deliver c _ bs => if c = ch then bs else []
    | .ack _ => []

/-- The events with each Deliver cut into its octets: what does not depend on how the stream is cut into chunks
(42_decoder.md R163). -/
def octetTrace (es : List Event) : List (Nat × Option Byte) :=
  es.flatMap fun e =>
    match e with
    | .deliver c _ bs => bs.map fun b => (c, some b)
    | .ack c => [(c, none)]

/-- The diagnostic trace apart from its `NoCallback` entries (42_decoder.md R163). -/
def quietDiags (ds : List Diag) : List Diag :=
  ds.filter fun d =>
    match d with
    | .noCallback _ => false
    | _ => true

/-- Whether a move is, or makes, a RESET. -/
def Move.resets (m : Move) : Bool :=
  match m with
  | .call _ (.reset _) => true
  | .begin _ (.reset _) => true
  | _ => false

/-- The TxWrite strings among the calls on the transport (10_state.md R39(a)). -/
def txWrites (ps : List PortCall) : List Bytes :=
  ps.filterMap fun p =>
    match p with
    | .write bs => some bs
    | _ => none

/-- An instruction that hands octets to the decoder: an arriving frame or RX_CHUNK. -/
def inbound (i : Instr) : Bool :=
  match i with
  | .rxChunk _ => true
  | i => (frameParts i).isSome

/-- A writer operation. -/
def outbound (i : Instr) : Bool :=
  match i with
  | .write _ _ => true
  | .sendCtrl _ _ _ => true
  | _ => false

/-- A codec operation: pure (40_codec.md R116). -/
def pureOp (i : Instr) : Bool :=
  match i with
  | .crc8 _ => true
  | .fcs _ _ _ => true
  | .encodeHeader _ _ _ _ => true
  | .encodeTrailer _ => true
  | .decodeHeader _ => true
  | .fcsCheck _ _ _ _ => true
  | _ => false

/-- `n` moves of the innermost call of a caller. -/
def advances (c : Caller) : Nat → State → Result
  | 0, s => .next s
  | n + 1, s =>
    match advance c s with
    | .next t => advances c n t
    | .fault f => .fault f
    | .refused q => .refused q

/-- A caller that holds `txlock` has, inside the call that holds it, a writer call that waits for the lock
(70_reset_and_hazards.md R269). -/
def Deadlocked (c : Caller) (s : State) : Prop :=
  s.txlock = .held c ∧
  ∃ inner job mid holder outer, s.inflight = inner ++ Task.tx job :: (mid ++ holder :: outer) ∧
    job.caller = c ∧ job.phase = .waiting ∧ holder.callerOf = c ∧ holder.holdsLock = true

end Sys2Proof.Machine
end

