-- ==== Sys2Proof/Certificates/Slice0/Obligations.lean ====
section
/-! DEFINITION. The statements for the provers. Each names the rules of spec/ it rests on; OBLIGATIONS.json lists them. -/

open Sys2Proof Sys2Proof.Machine

/-- Every operand of the eleven frame rows at every value the encoding admits (30_encoding.md R80 to R83). -/
def Obligations.DecodeEncodeAgree : Prop :=
  ∀ (i : Instr) (bs rest : Bytes), wellFormed i = true → encode i = some bs → decode (bs ++ rest) = .ok (i, rest)

/-- The other direction: each frame has one reading, and no bit of it is dropped (30_encoding.md R80, R88, R90). -/
def Obligations.EncodeDecodeAgree : Prop :=
  ∀ (bytes : Bytes) (i : Instr) (rest : Bytes), decode bytes = .ok (i, rest) →
    wellFormed i = true ∧ ∃ bs, encode i = some bs ∧ bs ++ rest = bytes

/-- The streams of 95_test_vectors.md V1, P2 (its first SABM frame, also the example of 41_writer.md R136), X13 and
X16. The codes of SABM and UA are PRESUMED (log 23); that 0x73 without payload is read as the row ACK and not as
UA is a DESIGN CHOICE (log 16). -/
def Obligations.SpecFramesDecode : Prop :=
  decode [0xF9, 0x07, 0xEF, 0x0B, 0x54, 0x65, 0x73, 0x74, 0x0A, 0xDA, 0xF9] =
      .ok (.uih false ⟨1, 3, 1, [0x54, 0x65, 0x73, 0x74, 0x0A], 0xDA⟩, []) ∧
    decode [0xF9, 0x03, 0x3F, 0x01, 0x1C, 0xF9] = .ok (.sabm true ⟨0, 3, 1, [], 0x1C⟩, []) ∧
    decode [0xF9, 0x07, 0x73, 0x01, 0x15, 0xF9] = .ok (.ack ⟨1, 3, 1, [], 0x15⟩, []) ∧
    decode [0xF9, 0x07, 0x63, 0x01, 0x00, 0xF9] = .ok (.ua false ⟨1, 3, 1, [], 0x00⟩, [])

/-- The opcode map of the wire (30_encoding.md R87; the codes other than UIH's are the spec's general knowledge, log
23). -/
def Obligations.ControlOctetsNameKinds : Prop :=
  (∀ k : FrameKind, ctrlByte k.code false = k.code ∧ ctrlByte k.code true = k.code ||| 0x10) ∧
    allKinds.map FrameKind.code = [0x01, 0x03, 0x05, 0x09, 0x0F, 0x2F, 0x43, 0x63, 0xEF] ∧
    (∀ n : Fin 256, ∀ k ∈ allKinds,
      kindOf (BitVec.ofNat 8 n.val) = some k ↔ BitVec.ofNat 8 n.val &&& 0xEF = k.code)

/-- The step law of the arriving frames (the model's form of fetching: log 1, log 17). -/
def Obligations.StepRunsDecodedFrame : Prop :=
  ∀ (s : State) (c : Caller) (chunk : Bytes) (ms : List Move) (i : Instr),
    s.agenda = .arrive c chunk :: ms → decode chunk = .ok (i, []) →
    step s = exec i { s with agenda := ms, caller := c }

/-- The decoder parses every frame identically, whatever its control octet (30_encoding.md R88): the frame rows are
RX_CHUNK of their octets. -/
def Obligations.ArrivalIsRxChunk : Prop :=
  ∀ (s : State) (c : Caller) (chunk : Bytes) (ms : List Move),
    s.agenda = .arrive c chunk :: ms → step s = exec (.rxChunk chunk) { s with agenda := ms, caller := c }

/-- The model's own form of the environment's moves (DESIGN CHOICE: log 1, log 12, log 22). -/
def Obligations.StepMakesTheNextMove : Prop :=
  ∀ (s : State) (c : Caller) (i : Instr) (r : TxReply) (ms : List Move),
    (s.agenda = .call c i :: ms → step s = exec i { s with agenda := ms, caller := c }) ∧
    (s.agenda = .begin c i :: ms → step s = beginCall i { s with agenda := ms, caller := c }) ∧
    (s.agenda = .advance c :: ms → step s = advance c { s with agenda := ms }) ∧
    (s.agenda = .reply r :: ms → step s = .next { s with agenda := ms, replies := s.replies ++ [r] }) ∧
    (s.agenda = [] → step s = .next s)

/-- Purity (40_codec.md R116) on an engine alive; after teardown the calls are refused (DEDUCED, log 6;
AfterTeardownRefused). -/
def Obligations.CodecOperationsArePure : Prop :=
  ∀ i : Instr, pureOp i = true →
    (wellFormed i = true → ∃ v, ∀ s : State, s.life = .alive →
      exec i s = .next { s with results := s.results ++ [⟨s.caller, v⟩] }) ∧
    (wellFormed i = false → ∀ s : State, s.life = .alive → exec i s = .refused .codecDomain)

/-- 40_codec.md R110, on an engine alive; after teardown: AfterTeardownRefused. -/
def Obligations.Crc8IsTheReflectedRegister : Prop :=
  (∀ (d : Bytes) (s : State), s.life = .alive →
      exec (.crc8 d) s = .next { s with results := s.results ++ [⟨s.caller, .octet (crc8 d)⟩] }) ∧
    crc8 [] = 0xFF ∧
    ∀ (d : Bytes) (b : Byte), crc8 (d ++ [b]) =
      (fun r : Byte => if r.getLsbD 0 = true then (r >>> 1) ^^^ 0xE0 else r >>> 1)^[8] (crc8 d ^^^ b)

/-- 40_codec.md R111, on an engine alive; after teardown: AfterTeardownRefused. -/
def Obligations.FcsIsTheComplement : Prop :=
  ∀ (a c l : Byte) (s : State), s.life = .alive →
    exec (.fcs a c l) s = .next { s with results := s.results ++ [⟨s.caller, .octet (0xFF - crc8 [a, c, l])⟩] } ∧
    0xFF - crc8 [a, c, l] = ~~~ crc8 [a, c, l]

/-- 40_codec.md R112, on an engine alive; after teardown: AfterTeardownRefused. -/
def Obligations.EncodeHeaderPacksFields : Prop :=
  ∀ (ch : Nat) (kind : Byte) (pf : Bool) (n : Nat) (s : State), s.life = .alive →
    (ch ≤ 63 ∧ n ≤ 127 → exec (.encodeHeader ch kind pf n) s = .next { s with
      results := s.results ++ [⟨s.caller, .octets [0xF9, BitVec.ofNat 8 (4 * ch + 3),
        kind ||| (if pf = true then 0x10 else 0x00), BitVec.ofNat 8 (2 * n + 1)]⟩] }) ∧
    (63 < ch ∨ 127 < n → exec (.encodeHeader ch kind pf n) s = .refused .codecDomain)

/-- 40_codec.md R113, on an engine alive; after teardown: AfterTeardownRefused. -/
def Obligations.EncodeTrailerIsFcsAndMarker : Prop :=
  ∀ (h : Header) (s : State), s.life = .alive →
    exec (.encodeTrailer h) s = .next { s with
      results := s.results ++ [⟨s.caller, .octets [0xFF - crc8 [h.addr, h.ctrl, h.len], 0xF9]⟩] }

/-- 40_codec.md R114, on an engine alive; after teardown: AfterTeardownRefused. -/
def Obligations.DecodeHeaderUnpacksFields : Prop :=
  ∀ (h : Header) (s : State), s.life = .alive →
    exec (.decodeHeader h) s = .next { s with
      results := s.results ++ [⟨s.caller,
        .fields (h.addr.toNat / 4) h.ctrl (h.ctrl.getLsbD 4) (h.len.toNat / 2)⟩] }

/-- 40_codec.md R115, on an engine alive; after teardown: AfterTeardownRefused. -/
def Obligations.FcsCheckComparesFcs : Prop :=
  ∀ (a c l f : Byte) (s : State), s.life = .alive →
    exec (.fcsCheck a c l f) s = .next { s with
      results := s.results ++ [⟨s.caller, .bool (decide (f = 0xFF - crc8 [a, c, l]))⟩] }

/-- The residue form of 40_codec.md R115's corner case, over all 2^32 inputs. -/
def Obligations.FcsResidueIsCF : Prop :=
  ∀ a c l f : Byte, fcsCheck a c l f = true ↔ crc8 [a, c, l, f] = 0xCF

/-- 40_codec.md R118. -/
def Obligations.HeaderRoundTrip : Prop :=
  ∀ (ch : Nat) (kind : Byte) (pf : Bool) (n : Nat), ch ≤ 63 → n ≤ 127 →
    decodeHeader (encodeHeader ch kind pf n) =
      .fields ch (kind ||| (if pf = true then 0x10 else 0)) (pf || kind.getLsbD 4) n ∧
    ∃ f, (encodeTrailer (encodeHeader ch kind pf n)).head? = some f ∧
      fcsCheck (encodeHeader ch kind pf n).addr (encodeHeader ch kind pf n).ctrl (encodeHeader ch kind pf n).len f = true

/-- 41_writer.md R131. -/
def Obligations.SegmentationCuts : Prop :=
  ∀ (ch : Nat) (p : Bytes),
    (segments p).length = (p.length + 126) / 127 ∧
    (∀ k : Nat, (segments p)[k]? = if 127 * k < p.length then some ((p.drop (127 * k)).take 127) else none) ∧
    (segments p).flatten = p ∧
    (writeStrings ch p).flatten.length = p.length + 6 * ((p.length + 126) / 127)

/-- 41_writer.md R132 and the frame part of R137. -/
def Obligations.WriteStringsAreFrames : Prop :=
  ∀ (ch : Nat) (p : Bytes), ch ≤ 63 →
    writeStrings ch p = (segments p).flatMap (fun seg =>
      [[0xF9, BitVec.ofNat 8 (4 * ch + 3), 0xEF, BitVec.ofNat 8 (2 * seg.length + 1)], seg,
        [(sentFrame ch 0xEF seg).fcs, 0xF9]]) ∧
    ∀ seg ∈ segments p,
      (segmentStrings ch seg).flatten = frameBytes 0xEF (sentFrame ch 0xEF seg) ∧
      (sentFrame ch 0xEF seg).ok = true ∧
      fcsCheck (addrByte (sentFrame ch 0xEF seg)) 0xEF (lenByte (sentFrame ch 0xEF seg))
        (sentFrame ch 0xEF seg).fcs = true

/-- 41_writer.md R135, with the success path of R130. -/
def Obligations.WriteSucceeds : Prop :=
  ∀ (ch : Nat) (p : Bytes) (s : State) (rs rest : List TxReply),
    s.life = .alive → ch ≤ s.cfg.nData.val → s.txlock = .free → s.replies = rs ++ rest →
    Accepts rs (writeStrings ch p) →
    exec (.write ch p) s = .next { s with
      portCalls := s.portCalls ++ (writeStrings ch p).map .write
      wire := s.wire ++ (writeStrings ch p).flatten
      replies := rest
      results := s.results ++ [⟨s.caller, .count p.length⟩] }

/-- The success path of 41_writer.md R136. -/
def Obligations.SendCtrlSucceeds : Prop :=
  ∀ (ch : Nat) (kind : Byte) (pf : Bool) (s : State) (r1 r2 : TxReply) (rest : List TxReply),
    s.life = .alive → ch ≤ s.cfg.nData.val → s.txlock = .free → s.replies = r1 :: r2 :: rest →
    r1.ret = some 4 → r2.ret = some 2 →
    exec (.sendCtrl ch kind pf) s = .next { s with
      portCalls := s.portCalls ++
        [.write [0xF9, BitVec.ofNat 8 (4 * ch + 3), kind ||| (if pf = true then 0x10 else 0), 0x01],
         .write [0xFF - crc8 [BitVec.ofNat 8 (4 * ch + 3), kind ||| (if pf = true then 0x10 else 0), 0x01], 0xF9]]
      wire := s.wire ++
        [0xF9, BitVec.ofNat 8 (4 * ch + 3), kind ||| (if pf = true then 0x10 else 0), 0x01,
         0xFF - crc8 [BitVec.ofNat 8 (4 * ch + 3), kind ||| (if pf = true then 0x10 else 0), 0x01], 0xF9]
      replies := rest
      results := s.results ++ [⟨s.caller, .count 0⟩] }

/-- 41_writer.md R133. -/
def Obligations.WriterAbortsOnFailure : Prop :=
  ∀ (i : Instr) (ch n : Nat) (pre post : List Bytes) (w : Bytes) (s : State) (rs rest : List TxReply) (r : TxReply),
    WriterCall i ch (pre ++ w :: post) n → s.life = .alive → ch ≤ s.cfg.nData.val → s.txlock = .free →
    s.replies = rs ++ r :: rest → Accepts rs pre → r.ret ≠ some w.length →
    exec i s = .next { s with
      portCalls := s.portCalls ++ (pre ++ [w]).map .write
      wire := s.wire ++ pre.flatten ++ w.take r.put
      replies := rest
      diags := s.diags ++ [.txIoError]
      results := s.results ++ [⟨s.caller, .ioError⟩] }

/-- acquire(txlock) and release(txlock) of 20_memory.md R73, the caller's own lock included, and the writer's loop
between them (41_writer.md R130, R133, R136). The grain of the moves and the form of the answers are the model's
(DESIGN CHOICE, log 12, log 10). -/
def Obligations.WriterWaitsForTheLock : Prop :=
  (∀ (i : Instr) (ch n : Nat) (ws : List Bytes) (s : State) (c : Caller),
    WriterCall i ch ws n → s.life = .alive → ch ≤ s.cfg.nData.val → s.txlock = .held c →
    exec i s = .next { s with
      inflight := .tx { caller := s.caller, phase := .waiting, todo := ws, total := n } :: s.inflight }) ∧
  ∀ (s : State) (job : TxJob) (pre post : List Task),
    s.inflight = pre ++ .tx job :: post → (∀ u ∈ pre, u.callerOf ≠ job.caller) →
    (∀ c, job.phase = .waiting → s.txlock = .held c → advance job.caller s = .next s) ∧
    (job.phase = .waiting → s.txlock = .free → advance job.caller s = .next { s with
      txlock := .held job.caller, inflight := pre ++ .tx { job with phase := .ready } :: post }) ∧
    (∀ w ws, job.phase = .ready → job.todo = w :: ws → advance job.caller s = .next { s with
      portCalls := s.portCalls ++ [.write w], inflight := pre ++ .tx { job with phase := .inWrite } :: post }) ∧
    (∀ w ws, job.phase = .inWrite → job.todo = w :: ws → s.replies = [] → advance job.caller s = .next s) ∧
    (∀ w ws r rs, job.phase = .inWrite → job.todo = w :: ws → s.replies = r :: rs → r.ret = some w.length →
      advance job.caller s = .next { s with
        replies := rs, wire := s.wire ++ w
        inflight := pre ++ .tx { job with phase := .ready, todo := ws } :: post }) ∧
    (∀ w ws r rs, job.phase = .inWrite → job.todo = w :: ws → s.replies = r :: rs → r.ret ≠ some w.length →
      advance job.caller s = .next { s with
        replies := rs, wire := s.wire ++ w.take r.put, diags := s.diags ++ [.txIoError], txlock := .free
        results := s.results ++ [⟨job.caller, .ioError⟩], inflight := pre ++ post }) ∧
    (job.phase = .ready → job.todo = [] → advance job.caller s = .next { s with
      txlock := .free, results := s.results ++ [⟨job.caller, .count job.total⟩], inflight := pre ++ post })

/-- The hang that 20_memory.md R73 says the model must keep (form of the answers: DESIGN CHOICE, log 10). -/
def Obligations.WriterHangsInTxWrite : Prop :=
  ∀ (i : Instr) (ch n : Nat) (pre post : List Bytes) (w : Bytes) (s : State),
    WriterCall i ch (pre ++ w :: post) n → s.life = .alive → ch ≤ s.cfg.nData.val → s.txlock = .free →
    Accepts s.replies pre →
    exec i s = .next { s with
      portCalls := s.portCalls ++ (pre ++ [w]).map .write
      wire := s.wire ++ pre.flatten
      replies := []
      txlock := .held s.caller
      inflight := .tx { caller := s.caller, phase := .inWrite, todo := w :: post, total := n } :: s.inflight }

/-- Why one call's frames are contiguous on the wire (20_memory.md R66, 41_writer.md R134). -/
def Obligations.LockExcludesOtherWriters : Prop :=
  ∀ (s t : State) (c : Caller) (m : Move) (ms : List Move),
    Inv s → s.txlock = .held c → s.agenda = m :: ms → step s = .next t → m ≠ .advance c → m.resets = false →
    t.txlock = .held c ∧ t.wire = s.wire ∧ txWrites t.portCalls = txWrites s.portCalls

/-- 70_reset_and_hazards.md R269: stuck. -/
def Obligations.SelfDeadlockIsForEver : Prop :=
  ∀ (s t : State) (c : Caller) (m : Move) (ms : List Move),
    Inv s → Deadlocked c s → s.agenda = m :: ms → step s = .next t → m.resets = false →
    Deadlocked c t ∧ t.wire = s.wire

/-- The whole call and its small moves, between which other callers act, are one meaning. The grain of the moves is
the model's choice (DESIGN CHOICE, log 12). -/
def Obligations.CallRunsAsItsMoves : Prop :=
  ∀ (i : Instr) (s t : State), (begunOf i s).isSome = true → exec i s = .next t →
    ∃ (n : Nat) (u : State), beginCall i s = .next u ∧ advances s.caller n u = .next t

/-- The completion and frame of RR, UI, RNR, REJ, DM, SABM, DISC, UA, UIH, ACK and ANY_OTHER_CONTROL (42_decoder.md
R153 to R159, R167). -/
def Obligations.FrameIsAccepted : Prop :=
  ∀ (i : Instr) (c : Byte) (f : Frame) (s : State),
    wellFormed i = true → frameParts i = some (c, f) → Inv s → s.life = .alive → s.rxBusy = false →
    readyForFrame s.cur → (s.cfg.verifyFcs = false ∨ f.fcs = fcsOf (addrByte f) c (lenByte f)) →
    ∃ t, exec i s = .next t ∧ DecoderFrame s t ∧
      t.cur.st = .init ∧ t.cur.cnt = 0 ∧ t.cur.rem = 0 ∧ t.cur.rlen = 0 ∧ t.cur.ch = f.ch.toNat ∧ t.cur.kind = c ∧
      t.cur.hdr = ⟨s.cur.hdr.h0, addrByte f, c, lenByte f, f.fcs, 0xF9⟩ ∧
      t.results = s.results ++ [⟨s.caller, .bool true⟩] ∧
      (s.cfg.nData.val < f.ch.toNat →
        t.ackReg = s.ackReg ∧ t.events = s.events ∧ t.diags = s.diags ++ [.unknownChannel f.ch.toNat] ∧
        t.cur.rbuf = s.cur.rbuf) ∧
      (f.ch.toNat ≤ s.cfg.nData.val → c = s.cfg.ackCtrl → f.payload = [] →
        t.ackReg = some f.ch.toNat ∧ t.events = s.events ++ [.ack f.ch.toNat] ∧ t.diags = s.diags ∧
        t.cur.rbuf = s.cur.rbuf) ∧
      (f.ch.toNat ≤ s.cfg.nData.val → ¬ (c = s.cfg.ackCtrl ∧ f.payload = []) →
        t.ackReg = s.ackReg ∧ t.events = s.events ++ deliverEvents s f.ch.toNat f.payload ∧
        t.diags = s.diags ++ dropDiags s f.ch.toNat f.payload ∧
        (∀ a, Memory.read t.cur.rbuf a =
          if s.cfg.defrag = true ∧ a < f.payload.length then f.payload.getD a 0 else Memory.read s.cur.rbuf a))

/-- 42_decoder.md R158 and R165. -/
def Obligations.FcsMismatchRejects : Prop :=
  ∀ (i : Instr) (c : Byte) (f : Frame) (s : State),
    wellFormed i = true → frameParts i = some (c, f) → Inv s → s.life = .alive → s.rxBusy = false →
    readyForFrame s.cur → s.cfg.verifyFcs = true → f.fcs ≠ fcsOf (addrByte f) c (lenByte f) →
    ∃ t, exec i s = .next t ∧ DecoderFrame s t ∧
      t.cur.st = .recover ∧ t.cur.cnt = 0 ∧ t.cur.rlen = 0 ∧ t.ackReg = s.ackReg ∧
      t.results = s.results ++ [⟨s.caller, .bool false⟩] ∧
      (s.cfg.nData.val < f.ch.toNat →
        t.events = s.events ∧ t.diags = s.diags ++ [.unknownChannel f.ch.toNat, .fcsMismatch f.fcs]) ∧
      (f.ch.toNat ≤ s.cfg.nData.val → s.cfg.defrag = true →
        t.events = s.events ∧ t.diags = s.diags ++ [.fcsMismatch f.fcs]) ∧
      (f.ch.toNat ≤ s.cfg.nData.val → s.cfg.defrag = false →
        t.events = s.events ++ deliverEvents s f.ch.toNat f.payload ∧
        t.diags = s.diags ++ dropDiags s f.ch.toNat f.payload ++ [.fcsMismatch f.fcs])

/-- 42_decoder.md R151 (rlen: 60_exceptions.md R222). That RX_CHUNK of the rest completes: RxChunkCompletes. -/
def Obligations.InitTakesAMarkerOrRecovers : Prop :=
  ∀ (b : Byte) (bs : Bytes) (s : State), s.life = .alive → s.rxBusy = false → s.callback = none → s.cur.st = .init →
    (b = 0xF9 → exec (.rxChunk (b :: bs)) s =
      exec (.rxChunk bs) { s with cur := { s.cur with st := .header, cnt := 1 } }) ∧
    (b ≠ 0xF9 → exec (.rxChunk (b :: bs)) s = exec (.rxChunk bs) { s with
      cur := { s.cur with st := .recover, cnt := 0, rlen := 0 }
      diags := s.diags ++ [.noStart b] })

/-- 42_decoder.md R152; the octet with cnt 3 is HeaderCompletes. -/
def Obligations.HeaderStoresOctets : Prop :=
  ∀ (b : Byte) (bs : Bytes) (s : State), s.life = .alive → s.rxBusy = false → s.callback = none → s.cur.st = .header →
    (s.cur.cnt = 1 → b = 0xF9 → exec (.rxChunk (b :: bs)) s = exec (.rxChunk bs) s) ∧
    (s.cur.cnt = 1 → b ≠ 0xF9 → exec (.rxChunk (b :: bs)) s =
      exec (.rxChunk bs) { s with cur := { s.cur with hdr := { s.cur.hdr with h1 := b }, cnt := 2 } }) ∧
    (s.cur.cnt = 2 → exec (.rxChunk (b :: bs)) s =
      exec (.rxChunk bs) { s with cur := { s.cur with hdr := { s.cur.hdr with h2 := b }, cnt := 3 } })

/-- 42_decoder.md R153 at the octet that completes the header (R152). -/
def Obligations.HeaderCompletes : Prop :=
  ∀ (l : Byte) (bs : Bytes) (s : State), s.life = .alive → s.rxBusy = false → s.callback = none → s.cur.st = .header → s.cur.cnt = 3 →
    exec (.rxChunk (l :: bs)) s = exec (.rxChunk bs) { s with
      cur := { s.cur with
        hdr := { s.cur.hdr with h3 := l }, cnt := 4, ch := s.cur.hdr.h1.toNat / 4, kind := s.cur.hdr.h2
        rem := l.toNat / 2, rlen := 0, st := if l.toNat / 2 = 0 then .footer else .payload }
      diags := s.diags ++
        (if s.cfg.nData.val < s.cur.hdr.h1.toNat / 4 then [.unknownChannel (s.cur.hdr.h1.toNat / 4)] else []) }

/-- 42_decoder.md R155. -/
def Obligations.PayloadSliceIsTaken : Prop :=
  ∀ (bs : Bytes) (s : State), Inv s → s.life = .alive → s.rxBusy = false → s.cur.st = .payload → bs ≠ [] →
    bs.length ≤ s.cur.rem →
    ∃ t, exec (.rxChunk bs) s = .next t ∧ DecoderFrame s t ∧ t.ackReg = s.ackReg ∧
      t.results = s.results ++ [⟨s.caller, .bool false⟩] ∧
      t.cur.rem = s.cur.rem - bs.length ∧
      t.cur.st = (if s.cur.rem = bs.length then .footer else .payload) ∧
      t.cur.cnt = s.cur.cnt ∧ t.cur.hdr = s.cur.hdr ∧ t.cur.ch = s.cur.ch ∧ t.cur.kind = s.cur.kind ∧
      (route s = .data → s.cfg.defrag = true →
        t.events = s.events ∧ t.diags = s.diags ∧ t.cur.rlen = s.cur.rlen + bs.length ∧
        (∀ a, Memory.read t.cur.rbuf a =
          if s.cur.rlen ≤ a ∧ a < s.cur.rlen + bs.length then bs.getD (a - s.cur.rlen) 0
          else Memory.read s.cur.rbuf a)) ∧
      (route s = .data → s.cfg.defrag = false →
        t.events = s.events ++ deliverEvents s s.cur.ch bs ∧ t.diags = s.diags ++ dropDiags s s.cur.ch bs ∧
        t.cur.rlen = s.cur.rlen ∧ t.cur.rbuf = s.cur.rbuf) ∧
      (route s ≠ .data →
        t.events = s.events ∧ t.diags = s.diags ∧ t.cur.rlen = s.cur.rlen ∧ t.cur.rbuf = s.cur.rbuf)

/-- 42_decoder.md R156, R158, R159; an octet other than F9 with cnt 5 is BadEndMarkerRecovers. -/
def Obligations.FooterTakesTheTrailer : Prop :=
  (∀ (b : Byte) (bs : Bytes) (s : State), s.life = .alive → s.rxBusy = false → s.callback = none → s.cur.st = .footer → s.cur.cnt = 4 →
    exec (.rxChunk (b :: bs)) s =
      exec (.rxChunk bs) { s with cur := { s.cur with hdr := { s.cur.hdr with h4 := b }, cnt := 5 } }) ∧
  ∀ (bs : Bytes) (s : State), Inv s → s.life = .alive → s.rxBusy = false → s.callback = none → s.cur.st = .footer → s.cur.cnt = 5 →
    (s.cfg.verifyFcs = true → s.cur.hdr.h4 ≠ fcsOf s.cur.hdr.h1 s.cur.hdr.h2 s.cur.hdr.h3 →
      exec (.rxChunk (0xF9 :: bs)) s = exec (.rxChunk bs) { s with
        cur := { s.cur with hdr := { s.cur.hdr with h5 := 0xF9 }, st := .recover, cnt := 0, rlen := 0 }
        diags := s.diags ++ [.fcsMismatch s.cur.hdr.h4] }) ∧
    (s.cfg.verifyFcs = false ∨ s.cur.hdr.h4 = fcsOf s.cur.hdr.h1 s.cur.hdr.h2 s.cur.hdr.h3 →
      (route s = .ack → exec (.rxChunk (0xF9 :: bs)) s = exec (.rxChunk bs) { s with
        cur := { s.cur with hdr := { s.cur.hdr with h5 := 0xF9 }, st := .init, cnt := 0, rlen := 0 }
        ackReg := some s.cur.ch, events := s.events ++ [.ack s.cur.ch] }) ∧
      (route s = .data → s.cfg.defrag = true → 0 < s.cur.rlen →
        ∃ p, memRead s.cur.rbuf s.cur.rlen = some p ∧ p.length = s.cur.rlen ∧
          (∀ a, a < s.cur.rlen → p[a]? = some (Memory.read s.cur.rbuf a)) ∧
          exec (.rxChunk (0xF9 :: bs)) s = exec (.rxChunk bs) { s with
            cur := { s.cur with hdr := { s.cur.hdr with h5 := 0xF9 }, st := .init, cnt := 0, rlen := 0 }
            events := s.events ++ deliverEvents s s.cur.ch p, diags := s.diags ++ dropDiags s s.cur.ch p }) ∧
      (route s = .drop ∨ route s = .data ∧ (s.cfg.defrag = false ∨ s.cur.rlen = 0) →
        exec (.rxChunk (0xF9 :: bs)) s = exec (.rxChunk bs) { s with
          cur := { s.cur with hdr := { s.cur.hdr with h5 := 0xF9 }, st := .init, cnt := 0, rlen := 0 } }))

/-- 42_decoder.md R157. -/
def Obligations.BadEndMarkerRecovers : Prop :=
  ∀ (b : Byte) (bs : Bytes) (s : State), s.life = .alive → s.rxBusy = false → s.callback = none → s.cur.st = .footer → s.cur.cnt = 5 → b ≠ 0xF9 →
    exec (.rxChunk (b :: bs)) s = exec (.rxChunk bs) { s with
      cur := { s.cur with hdr := { s.cur.hdr with h5 := b }, rlen := 0, cnt := 0, st := .recover }
      diags := s.diags ++ [.noEnd b] }

/-- 42_decoder.md R160. -/
def Obligations.RecoverScansForMarker : Prop :=
  ∀ (xs bs : Bytes) (s : State), s.life = .alive → s.rxBusy = false → s.callback = none → s.cur.st = .recover →
    (0xF9 : Byte) ∉ xs →
    exec (.rxChunk (xs ++ bs)) s = exec (.rxChunk bs) s ∧
    exec (.rxChunk (xs ++ 0xF9 :: bs)) s =
      exec (.rxChunk bs) { s with cur := { s.cur with st := .header, cnt := 1 } }

/-- No input octet string causes any exception (42_decoder.md R150, R161, R162); R28: without DEFRAG the buffer is
never written. -/
def Obligations.RxChunkCompletes : Prop :=
  ∀ (c : Bytes) (s : State), Inv s → s.life = .alive → s.rxBusy = false →
    ∃ t, exec (.rxChunk c) s = .next t ∧ DecoderFrame s t ∧
      t.results = s.results ++ [⟨s.caller, .bool (decide (t.cur.st = .init))⟩] ∧
      (s.cfg.defrag = false → t.cur.rbuf = s.cur.rbuf)

/-- 42_decoder.md R166. -/
def Obligations.EmptyChunkChangesNothing : Prop :=
  ∀ s : State, s.life = .alive → s.rxBusy = false → s.callback = none →
    exec (.rxChunk []) s = .next { s with
      results := s.results ++ [⟨s.caller, .bool (decide (s.cur.st = .init))⟩] }

/-- 42_decoder.md R163 for one cut; any cutting is a sequence of such cuts. -/
def Obligations.ChunkingInvariance : Prop :=
  ∀ (a b : Bytes) (s t u v : State), Inv s →
    exec (.rxChunk (a ++ b)) s = .next t → exec (.rxChunk a) s = .next u → exec (.rxChunk b) u = .next v →
    v.cur = t.cur ∧ v.ackReg = t.ackReg ∧ octetTrace v.events = octetTrace t.events ∧
    quietDiags v.diags = quietDiags t.diags ∧
    (s.cfg.defrag = true → v.events = t.events ∧ v.diags = t.diags)

/-- The source's round trip, over the two halves of the core, for every payload and every configuration of the
receiver. -/
def Obligations.LoopbackDeliversThePayload : Prop :=
  ∀ (ch : Nat) (p : Bytes) (h : Handle) (s t r : State),
    exec (.write ch p) s = .next t → t.results = s.results ++ [⟨s.caller, .count p.length⟩] →
    Inv r → r.life = .alive → r.rxBusy = false → r.cur.st = .init → ch ≤ r.cfg.nData.val → r.cbAt ch = some h →
    ∃ u, exec (.rxChunk (t.wire.drop s.wire.length)) r = .next u ∧ u.cur.st = .init ∧
      u.events = r.events ++ (segments p).map (.deliver ch h) ∧ u.diags = r.diags ∧
      deliveredTo ch (u.events.drop r.events.length) = p ∧
      ∀ c, c ≠ ch → deliveredTo c (u.events.drop r.events.length) = []

/-- 70_reset_and_hazards.md R265, R266. -/
def Obligations.OverlappingRxIsRefused : Prop :=
  ∀ (i : Instr) (s : State), inbound i = true → s.life = .alive → s.rxBusy = true → exec i s = .refused .rxOverlap

/-- 43_registry.md R200. -/
def Obligations.RegisterCallbackBinds : Prop :=
  ∀ (ch : Nat) (h : Handle) (s : State), s.life = .alive → ch ≤ s.cfg.nData.val →
    ∃ t, exec (.registerCallback ch h) s = .next t ∧ t = { s with cb := t.cb } ∧ t.cbAt ch = some h ∧
      ∀ c, c ≤ 63 → c ≠ ch → t.cbAt c = s.cbAt c

/-- 43_registry.md R201. That DISPATCH can be made as a call, that the callback has returned when it returns, and
that octet strings of any length are taken, is the model's choice (DESIGN CHOICE, log 24). -/
def Obligations.DispatchDeliversOrDrops : Prop :=
  ∀ (ch : Nat) (bs : Bytes) (s : State), s.life = .alive →
    (s.cfg.nData.val < ch → exec (.dispatch ch bs) s = .next { s with diags := s.diags ++ [.unknownChannel ch] }) ∧
    (ch ≤ s.cfg.nData.val → s.cbAt ch = none →
      exec (.dispatch ch bs) s = .next { s with diags := s.diags ++ [.noCallback ch] }) ∧
    (∀ h, ch ≤ s.cfg.nData.val → s.cbAt ch = some h →
      exec (.dispatch ch bs) s = .next { s with events := s.events ++ [.deliver ch h bs] })

/-- 43_registry.md R202. -/
def Obligations.SetOpenOpensTheChannel : Prop :=
  ∀ (ch : Nat) (s : State), s.life = .alive → ch ≤ s.cfg.nData.val →
    ∃ t, exec (.setOpen ch) s = .next t ∧ t = { s with opened := t.opened } ∧ t.openAt ch = true ∧
      ∀ c, c ≤ 63 → c ≠ ch → t.openAt c = s.openAt c

/-- 43_registry.md R203. -/
def Obligations.GetOpenReadsTheFlag : Prop :=
  ∀ (ch : Nat) (s : State), s.life = .alive → ch ≤ s.cfg.nData.val →
    exec (.getOpen ch) s = .next { s with results := s.results ++ [⟨s.caller, .bool (s.openAt ch)⟩] }

/-- 43_registry.md R204. -/
def Obligations.AckReadReadsTheRegister : Prop :=
  ∀ s : State,
    (s.life = .alive → exec .ackRead s = .next { s with results := s.results ++ [⟨s.caller, .ack s.ackReg⟩] }) ∧
    (s.life = .tornDown → exec .ackRead s = .next { s with results := s.results ++ [⟨s.caller, .stopped⟩] })

/-- 43_registry.md R205. -/
def Obligations.AckClearClearsTheRegister : Prop :=
  ∀ s : State,
    (s.life = .alive → exec .ackClear s = .next { s with ackReg := none }) ∧
    (s.life = .tornDown → exec .ackClear s = .refused .afterTeardown)

/-- 43_registry.md R206, R207. -/
def Obligations.StartStopPassThrough : Prop :=
  ∀ s : State,
    (s.life = .alive → exec .start s = .next { s with portCalls := s.portCalls ++ [.start] } ∧
      exec .stop s = .next { s with portCalls := s.portCalls ++ [.stop] }) ∧
    (s.life = .tornDown → exec .start s = .refused .afterTeardown ∧ exec .stop s = .refused .afterTeardown)

/-- 43_registry.md R208, 70_reset_and_hazards.md R268; the clause on a writer call that waits is the model's reading
(DEDUCED, log 9). -/
def Obligations.TeardownEndsTheEngine : Prop :=
  ∀ s : State, s.life = .alive →
    (s.rxBusy = false → s.txlock = .free → s.inflight.any Task.isTx = false →
      exec .teardown s = .next { s with life := .tornDown }) ∧
    (s.rxBusy = true ∨ s.txlock ≠ .free ∨ s.inflight.any Task.isTx = true →
      exec .teardown s = .refused .teardownBusy)

/-- 43_registry.md R208 and the first check of 60_exceptions.md R227; that this holds of the codec operations, whose
pseudocode has no test of life, and of DISPATCH made as a call, is DEDUCED (log 6, log 7); RESET makes a new
instance (log 8). -/
def Obligations.AfterTeardownRefused : Prop :=
  ∀ (i : Instr) (s : State), s.life = .tornDown → i ≠ .ackRead → (∀ r, i ≠ .reset r) →
    exec i s = .refused .afterTeardown

/-- 60_exceptions.md R225, second row. -/
def Obligations.ChannelRangeRefused : Prop :=
  ∀ (ch : Nat) (p : Bytes) (kind : Byte) (pf : Bool) (h : Handle) (s : State),
    s.life = .alive → s.cfg.nData.val < ch →
    exec (.write ch p) s = .refused .channelRange ∧ exec (.sendCtrl ch kind pf) s = .refused .channelRange ∧
    exec (.registerCallback ch h) s = .refused .channelRange ∧ exec (.setOpen ch) s = .refused .channelRange ∧
    exec (.getOpen ch) s = .refused .channelRange

/-- 70_reset_and_hazards.md R260; hdr and rbuf are any octets and nothing is said of them. That the inputs and the
caller stay, and that the outputs and the calls in flight go with the old instance, is the model's (DESIGN
CHOICE, log 8). -/
def Obligations.ResetConstructsAnInstance : Prop :=
  ∀ (r : CfgRequest) (s : State),
    (r.nData ≤ 63 → ∃ t, exec (.reset r) s = .next t ∧
      t.cfg.nData.val = r.nData ∧ t.cfg.defrag = r.defrag ∧ t.cfg.verifyFcs = r.verifyFcs ∧
      t.cfg.ackCtrl = r.ackCtrl ∧ t.cur.st = .init ∧ t.cur.cnt = 0 ∧ t.cur.rem = 0 ∧ t.cur.rlen = 0 ∧
      t.cur.ch = 0 ∧ t.cur.kind = 0 ∧ (∀ c, c ≤ 63 → t.cbAt c = none ∧ t.openAt c = false) ∧
      t.ackReg = none ∧ t.txlock = .free ∧ t.life = .alive ∧ t.rxBusy = false ∧ t.events = [] ∧ t.diags = [] ∧
      t.portCalls = [] ∧ t.wire = [] ∧ t.results = [] ∧ t.inflight = [] ∧ t.agenda = s.agenda ∧ t.replies = s.replies ∧ t.caller = s.caller) ∧
    (63 < r.nData → exec (.reset r) s = .refused .badConfig)

/-- 70_reset_and_hazards.md R261. -/
def Obligations.PowerOnState : Prop :=
  State.reset.cur.st = .init ∧ State.reset.cur.cnt = 0 ∧ State.reset.cur.rem = 0 ∧ State.reset.cur.rlen = 0 ∧
    State.reset.cur.ch = 0 ∧ State.reset.cur.kind = 0 ∧
    (∀ c, c ≤ 63 → State.reset.cbAt c = none ∧ State.reset.openAt c = false) ∧ State.reset.ackReg = none ∧
    State.reset.txlock = .free ∧ State.reset.life = .alive ∧ State.reset.rxBusy = false ∧ State.reset.events = [] ∧
    State.reset.diags = [] ∧ State.reset.portCalls = [] ∧ State.reset.wire = [] ∧ State.reset.results = []

/-- 10_state.md R29 and the bookkeeping invariants of the model (Safety.lean). -/
def Obligations.InvariantAtReset : Prop :=
  (∀ cfg : Cfg, Inv (State.construct cfg)) ∧ Inv State.reset

/-- 10_state.md R29 between any two moves. -/
def Obligations.InvariantIsKept : Prop :=
  ∀ s t : State, Inv s → step s = .next t → Inv t

/-- The buffer never overflows (10_state.md R29), both requirements of 20_memory.md R61 always hold, and the core
has no trap (60_exceptions.md R220). -/
def Obligations.NoStepFaults : Prop :=
  (∀ (s : State) (f : Fault), Inv s → step s ≠ .fault f) ∧ ∀ (n : Nat) (s : State), Inv s → Safe n s

/-- 10_state.md R21: no host operation reads or writes the cursor; R32. -/
def Obligations.OnlyTheDecoderWritesTheCursor : Prop :=
  ∀ (i : Instr) (s t : State), exec i s = .next t → inbound i = false → (∀ r, i ≠ .reset r) →
    t.cur = s.cur ∧ t.rxBusy = s.rxBusy ∧ (i ≠ .ackClear → t.ackReg = s.ackReg)

/-- 10_state.md R20, R30, R31, R34. -/
def Obligations.RegistryHasOneWriter : Prop :=
  ∀ (i : Instr) (s t : State), exec i s = .next t → (∀ r, i ≠ .reset r) →
    t.cfg = s.cfg ∧ ((∀ ch h, i ≠ .registerCallback ch h) → t.cb = s.cb) ∧
    ((∀ ch, i ≠ .setOpen ch) → t.opened = s.opened) ∧ (i ≠ .teardown → t.life = s.life)

/-- 10_state.md R31: no operation clears it except reset. -/
def Obligations.OpenFlagsAreNeverCleared : Prop :=
  ∀ (s t : State) (m : Move) (ms : List Move) (c : Nat), s.agenda = m :: ms → m.resets = false → step s = .next t →
    s.openAt c = true → t.openAt c = true

/-- 60_exceptions.md R233 with 90_conflicts.md C9: a timeout never marks a channel open (the agent's form: log 21). -/
def Obligations.HandshakeOpensAfterAck : Prop :=
  ∀ (s t : State) (hs : Handshake) (ms : List Move),
    s.agenda = .openTick :: ms → s.handshake = some hs → step s = .next t →
    (hs.phase ≠ .mark → t.opened = s.opened) ∧
    (hs.phase = .mark → t.openAt hs.ch = true ∧ ∀ c, c ≤ 63 → c ≠ hs.ch → t.openAt c = s.openAt c) ∧
    (∀ hs', t.handshake = some hs' → hs'.phase = .mark → hs.phase ≠ .mark →
      hs.phase = .poll ∧ hs'.ch = hs.ch ∧ s.ackReg = some hs.ch ∧ s.life = .alive)

/-- 60_exceptions.md R233, R234 (the agent's form: log 21). -/
def Obligations.HandshakeEndsOnTimeoutAndStop : Prop :=
  ∀ (s : State) (hs : Handshake) (ms : List Move),
    s.agenda = .openTick :: ms → s.handshake = some hs → hs.phase = .poll →
    ∃ t, step s = .next t ∧
      (s.life = .tornDown → t.handshake = none ∧ t.openResult = some false) ∧
      (s.life = .alive → s.ackReg ≠ some hs.ch → hs.retryBound ≤ hs.tries + 1 →
        t.handshake = none ∧ t.openResult = some false) ∧
      (s.life = .alive → s.ackReg ≠ some hs.ch → hs.tries + 1 < hs.retryBound →
        t.handshake = some { hs with tries := hs.tries + 1 })
end

