-- ==== Sys2Proof/Laws/State.lean ====
section
/-! SUPPORT. One lemma per field per update of the state, true by rfl; what `dispatch` and the cursor updates leave
alone; the registry's read after write. Later proofs cite these and unfold no record update. -/

namespace Sys2Proof.Machine

/-! ### `State.emit` -/

@[simp] theorem State.emit_cfg (s : State) (e : Event) : (s.emit e).cfg = s.cfg := rfl
@[simp] theorem State.emit_cur (s : State) (e : Event) : (s.emit e).cur = s.cur := rfl
@[simp] theorem State.emit_cb (s : State) (e : Event) : (s.emit e).cb = s.cb := rfl
@[simp] theorem State.emit_opened (s : State) (e : Event) : (s.emit e).opened = s.opened := rfl
@[simp] theorem State.emit_ackReg (s : State) (e : Event) : (s.emit e).ackReg = s.ackReg := rfl
@[simp] theorem State.emit_txlock (s : State) (e : Event) : (s.emit e).txlock = s.txlock := rfl
@[simp] theorem State.emit_life (s : State) (e : Event) : (s.emit e).life = s.life := rfl
@[simp] theorem State.emit_rxBusy (s : State) (e : Event) : (s.emit e).rxBusy = s.rxBusy := rfl
@[simp] theorem State.emit_callback (s : State) (e : Event) : (s.emit e).callback = s.callback := rfl
@[simp] theorem State.emit_inflight (s : State) (e : Event) : (s.emit e).inflight = s.inflight := rfl
@[simp] theorem State.emit_events (s : State) (e : Event) : (s.emit e).events = s.events ++ [e] := rfl
@[simp] theorem State.emit_diags (s : State) (e : Event) : (s.emit e).diags = s.diags := rfl
@[simp] theorem State.emit_portCalls (s : State) (e : Event) : (s.emit e).portCalls = s.portCalls := rfl
@[simp] theorem State.emit_wire (s : State) (e : Event) : (s.emit e).wire = s.wire := rfl
@[simp] theorem State.emit_results (s : State) (e : Event) : (s.emit e).results = s.results := rfl
@[simp] theorem State.emit_caller (s : State) (e : Event) : (s.emit e).caller = s.caller := rfl
@[simp] theorem State.emit_replies (s : State) (e : Event) : (s.emit e).replies = s.replies := rfl
@[simp] theorem State.emit_agenda (s : State) (e : Event) : (s.emit e).agenda = s.agenda := rfl
@[simp] theorem State.emit_handshake (s : State) (e : Event) : (s.emit e).handshake = s.handshake := rfl
@[simp] theorem State.emit_openResult (s : State) (e : Event) : (s.emit e).openResult = s.openResult := rfl
@[simp] theorem State.emit_draws (s : State) (e : Event) : (s.emit e).draws = s.draws := rfl

/-! ### `State.note` -/

@[simp] theorem State.note_cfg (s : State) (d : Diag) : (s.note d).cfg = s.cfg := rfl
@[simp] theorem State.note_cur (s : State) (d : Diag) : (s.note d).cur = s.cur := rfl
@[simp] theorem State.note_cb (s : State) (d : Diag) : (s.note d).cb = s.cb := rfl
@[simp] theorem State.note_opened (s : State) (d : Diag) : (s.note d).opened = s.opened := rfl
@[simp] theorem State.note_ackReg (s : State) (d : Diag) : (s.note d).ackReg = s.ackReg := rfl
@[simp] theorem State.note_txlock (s : State) (d : Diag) : (s.note d).txlock = s.txlock := rfl
@[simp] theorem State.note_life (s : State) (d : Diag) : (s.note d).life = s.life := rfl
@[simp] theorem State.note_rxBusy (s : State) (d : Diag) : (s.note d).rxBusy = s.rxBusy := rfl
@[simp] theorem State.note_callback (s : State) (d : Diag) : (s.note d).callback = s.callback := rfl
@[simp] theorem State.note_inflight (s : State) (d : Diag) : (s.note d).inflight = s.inflight := rfl
@[simp] theorem State.note_events (s : State) (d : Diag) : (s.note d).events = s.events := rfl
@[simp] theorem State.note_diags (s : State) (d : Diag) : (s.note d).diags = s.diags ++ [d] := rfl
@[simp] theorem State.note_portCalls (s : State) (d : Diag) : (s.note d).portCalls = s.portCalls := rfl
@[simp] theorem State.note_wire (s : State) (d : Diag) : (s.note d).wire = s.wire := rfl
@[simp] theorem State.note_results (s : State) (d : Diag) : (s.note d).results = s.results := rfl
@[simp] theorem State.note_caller (s : State) (d : Diag) : (s.note d).caller = s.caller := rfl
@[simp] theorem State.note_replies (s : State) (d : Diag) : (s.note d).replies = s.replies := rfl
@[simp] theorem State.note_agenda (s : State) (d : Diag) : (s.note d).agenda = s.agenda := rfl
@[simp] theorem State.note_handshake (s : State) (d : Diag) : (s.note d).handshake = s.handshake := rfl
@[simp] theorem State.note_openResult (s : State) (d : Diag) : (s.note d).openResult = s.openResult := rfl
@[simp] theorem State.note_draws (s : State) (d : Diag) : (s.note d).draws = s.draws := rfl

/-! ### `State.retTo` -/

@[simp] theorem State.retTo_cfg (s : State) (c : Caller) (v : Value) : (s.retTo c v).cfg = s.cfg := rfl
@[simp] theorem State.retTo_cur (s : State) (c : Caller) (v : Value) : (s.retTo c v).cur = s.cur := rfl
@[simp] theorem State.retTo_cb (s : State) (c : Caller) (v : Value) : (s.retTo c v).cb = s.cb := rfl
@[simp] theorem State.retTo_opened (s : State) (c : Caller) (v : Value) : (s.retTo c v).opened = s.opened := rfl
@[simp] theorem State.retTo_ackReg (s : State) (c : Caller) (v : Value) : (s.retTo c v).ackReg = s.ackReg := rfl
@[simp] theorem State.retTo_txlock (s : State) (c : Caller) (v : Value) : (s.retTo c v).txlock = s.txlock := rfl
@[simp] theorem State.retTo_life (s : State) (c : Caller) (v : Value) : (s.retTo c v).life = s.life := rfl
@[simp] theorem State.retTo_rxBusy (s : State) (c : Caller) (v : Value) : (s.retTo c v).rxBusy = s.rxBusy := rfl
@[simp] theorem State.retTo_callback (s : State) (c : Caller) (v : Value) : (s.retTo c v).callback = s.callback := rfl
@[simp] theorem State.retTo_inflight (s : State) (c : Caller) (v : Value) : (s.retTo c v).inflight = s.inflight := rfl
@[simp] theorem State.retTo_events (s : State) (c : Caller) (v : Value) : (s.retTo c v).events = s.events := rfl
@[simp] theorem State.retTo_diags (s : State) (c : Caller) (v : Value) : (s.retTo c v).diags = s.diags := rfl
@[simp] theorem State.retTo_portCalls (s : State) (c : Caller) (v : Value) : (s.retTo c v).portCalls = s.portCalls := rfl
@[simp] theorem State.retTo_wire (s : State) (c : Caller) (v : Value) : (s.retTo c v).wire = s.wire := rfl
@[simp] theorem State.retTo_results (s : State) (c : Caller) (v : Value) : (s.retTo c v).results = s.results ++ [⟨c, v⟩] := rfl
@[simp] theorem State.retTo_caller (s : State) (c : Caller) (v : Value) : (s.retTo c v).caller = s.caller := rfl
@[simp] theorem State.retTo_replies (s : State) (c : Caller) (v : Value) : (s.retTo c v).replies = s.replies := rfl
@[simp] theorem State.retTo_agenda (s : State) (c : Caller) (v : Value) : (s.retTo c v).agenda = s.agenda := rfl
@[simp] theorem State.retTo_handshake (s : State) (c : Caller) (v : Value) : (s.retTo c v).handshake = s.handshake := rfl
@[simp] theorem State.retTo_openResult (s : State) (c : Caller) (v : Value) : (s.retTo c v).openResult = s.openResult := rfl
@[simp] theorem State.retTo_draws (s : State) (c : Caller) (v : Value) : (s.retTo c v).draws = s.draws := rfl

/-! ### `State.ret` -/

@[simp] theorem State.ret_cfg (s : State) (v : Value) : (s.ret v).cfg = s.cfg := rfl
@[simp] theorem State.ret_cur (s : State) (v : Value) : (s.ret v).cur = s.cur := rfl
@[simp] theorem State.ret_cb (s : State) (v : Value) : (s.ret v).cb = s.cb := rfl
@[simp] theorem State.ret_opened (s : State) (v : Value) : (s.ret v).opened = s.opened := rfl
@[simp] theorem State.ret_ackReg (s : State) (v : Value) : (s.ret v).ackReg = s.ackReg := rfl
@[simp] theorem State.ret_txlock (s : State) (v : Value) : (s.ret v).txlock = s.txlock := rfl
@[simp] theorem State.ret_life (s : State) (v : Value) : (s.ret v).life = s.life := rfl
@[simp] theorem State.ret_rxBusy (s : State) (v : Value) : (s.ret v).rxBusy = s.rxBusy := rfl
@[simp] theorem State.ret_callback (s : State) (v : Value) : (s.ret v).callback = s.callback := rfl
@[simp] theorem State.ret_inflight (s : State) (v : Value) : (s.ret v).inflight = s.inflight := rfl
@[simp] theorem State.ret_events (s : State) (v : Value) : (s.ret v).events = s.events := rfl
@[simp] theorem State.ret_diags (s : State) (v : Value) : (s.ret v).diags = s.diags := rfl
@[simp] theorem State.ret_portCalls (s : State) (v : Value) : (s.ret v).portCalls = s.portCalls := rfl
@[simp] theorem State.ret_wire (s : State) (v : Value) : (s.ret v).wire = s.wire := rfl
@[simp] theorem State.ret_results (s : State) (v : Value) : (s.ret v).results = s.results ++ [⟨s.caller, v⟩] := rfl
@[simp] theorem State.ret_caller (s : State) (v : Value) : (s.ret v).caller = s.caller := rfl
@[simp] theorem State.ret_replies (s : State) (v : Value) : (s.ret v).replies = s.replies := rfl
@[simp] theorem State.ret_agenda (s : State) (v : Value) : (s.ret v).agenda = s.agenda := rfl
@[simp] theorem State.ret_handshake (s : State) (v : Value) : (s.ret v).handshake = s.handshake := rfl
@[simp] theorem State.ret_openResult (s : State) (v : Value) : (s.ret v).openResult = s.openResult := rfl
@[simp] theorem State.ret_draws (s : State) (v : Value) : (s.ret v).draws = s.draws := rfl

/-! ### `State.portCall` -/

@[simp] theorem State.portCall_cfg (s : State) (p : PortCall) : (s.portCall p).cfg = s.cfg := rfl
@[simp] theorem State.portCall_cur (s : State) (p : PortCall) : (s.portCall p).cur = s.cur := rfl
@[simp] theorem State.portCall_cb (s : State) (p : PortCall) : (s.portCall p).cb = s.cb := rfl
@[simp] theorem State.portCall_opened (s : State) (p : PortCall) : (s.portCall p).opened = s.opened := rfl
@[simp] theorem State.portCall_ackReg (s : State) (p : PortCall) : (s.portCall p).ackReg = s.ackReg := rfl
@[simp] theorem State.portCall_txlock (s : State) (p : PortCall) : (s.portCall p).txlock = s.txlock := rfl
@[simp] theorem State.portCall_life (s : State) (p : PortCall) : (s.portCall p).life = s.life := rfl
@[simp] theorem State.portCall_rxBusy (s : State) (p : PortCall) : (s.portCall p).rxBusy = s.rxBusy := rfl
@[simp] theorem State.portCall_callback (s : State) (p : PortCall) : (s.portCall p).callback = s.callback := rfl
@[simp] theorem State.portCall_inflight (s : State) (p : PortCall) : (s.portCall p).inflight = s.inflight := rfl
@[simp] theorem State.portCall_events (s : State) (p : PortCall) : (s.portCall p).events = s.events := rfl
@[simp] theorem State.portCall_diags (s : State) (p : PortCall) : (s.portCall p).diags = s.diags := rfl
@[simp] theorem State.portCall_portCalls (s : State) (p : PortCall) : (s.portCall p).portCalls = s.portCalls ++ [p] := rfl
@[simp] theorem State.portCall_wire (s : State) (p : PortCall) : (s.portCall p).wire = s.wire := rfl
@[simp] theorem State.portCall_results (s : State) (p : PortCall) : (s.portCall p).results = s.results := rfl
@[simp] theorem State.portCall_caller (s : State) (p : PortCall) : (s.portCall p).caller = s.caller := rfl
@[simp] theorem State.portCall_replies (s : State) (p : PortCall) : (s.portCall p).replies = s.replies := rfl
@[simp] theorem State.portCall_agenda (s : State) (p : PortCall) : (s.portCall p).agenda = s.agenda := rfl
@[simp] theorem State.portCall_handshake (s : State) (p : PortCall) : (s.portCall p).handshake = s.handshake := rfl
@[simp] theorem State.portCall_openResult (s : State) (p : PortCall) : (s.portCall p).openResult = s.openResult := rfl
@[simp] theorem State.portCall_draws (s : State) (p : PortCall) : (s.portCall p).draws = s.draws := rfl

/-! ### `State.onWire` -/

@[simp] theorem State.onWire_cfg (s : State) (bs : Bytes) : (s.onWire bs).cfg = s.cfg := rfl
@[simp] theorem State.onWire_cur (s : State) (bs : Bytes) : (s.onWire bs).cur = s.cur := rfl
@[simp] theorem State.onWire_cb (s : State) (bs : Bytes) : (s.onWire bs).cb = s.cb := rfl
@[simp] theorem State.onWire_opened (s : State) (bs : Bytes) : (s.onWire bs).opened = s.opened := rfl
@[simp] theorem State.onWire_ackReg (s : State) (bs : Bytes) : (s.onWire bs).ackReg = s.ackReg := rfl
@[simp] theorem State.onWire_txlock (s : State) (bs : Bytes) : (s.onWire bs).txlock = s.txlock := rfl
@[simp] theorem State.onWire_life (s : State) (bs : Bytes) : (s.onWire bs).life = s.life := rfl
@[simp] theorem State.onWire_rxBusy (s : State) (bs : Bytes) : (s.onWire bs).rxBusy = s.rxBusy := rfl
@[simp] theorem State.onWire_callback (s : State) (bs : Bytes) : (s.onWire bs).callback = s.callback := rfl
@[simp] theorem State.onWire_inflight (s : State) (bs : Bytes) : (s.onWire bs).inflight = s.inflight := rfl
@[simp] theorem State.onWire_events (s : State) (bs : Bytes) : (s.onWire bs).events = s.events := rfl
@[simp] theorem State.onWire_diags (s : State) (bs : Bytes) : (s.onWire bs).diags = s.diags := rfl
@[simp] theorem State.onWire_portCalls (s : State) (bs : Bytes) : (s.onWire bs).portCalls = s.portCalls := rfl
@[simp] theorem State.onWire_wire (s : State) (bs : Bytes) : (s.onWire bs).wire = s.wire ++ bs := rfl
@[simp] theorem State.onWire_results (s : State) (bs : Bytes) : (s.onWire bs).results = s.results := rfl
@[simp] theorem State.onWire_caller (s : State) (bs : Bytes) : (s.onWire bs).caller = s.caller := rfl
@[simp] theorem State.onWire_replies (s : State) (bs : Bytes) : (s.onWire bs).replies = s.replies := rfl
@[simp] theorem State.onWire_agenda (s : State) (bs : Bytes) : (s.onWire bs).agenda = s.agenda := rfl
@[simp] theorem State.onWire_handshake (s : State) (bs : Bytes) : (s.onWire bs).handshake = s.handshake := rfl
@[simp] theorem State.onWire_openResult (s : State) (bs : Bytes) : (s.onWire bs).openResult = s.openResult := rfl
@[simp] theorem State.onWire_draws (s : State) (bs : Bytes) : (s.onWire bs).draws = s.draws := rfl

/-! ### `State.setCur` -/

@[simp] theorem State.setCur_cfg (s : State) (cur : Cursor) : (s.setCur cur).cfg = s.cfg := rfl
@[simp] theorem State.setCur_cur (s : State) (cur : Cursor) : (s.setCur cur).cur = cur := rfl
@[simp] theorem State.setCur_cb (s : State) (cur : Cursor) : (s.setCur cur).cb = s.cb := rfl
@[simp] theorem State.setCur_opened (s : State) (cur : Cursor) : (s.setCur cur).opened = s.opened := rfl
@[simp] theorem State.setCur_ackReg (s : State) (cur : Cursor) : (s.setCur cur).ackReg = s.ackReg := rfl
@[simp] theorem State.setCur_txlock (s : State) (cur : Cursor) : (s.setCur cur).txlock = s.txlock := rfl
@[simp] theorem State.setCur_life (s : State) (cur : Cursor) : (s.setCur cur).life = s.life := rfl
@[simp] theorem State.setCur_rxBusy (s : State) (cur : Cursor) : (s.setCur cur).rxBusy = s.rxBusy := rfl
@[simp] theorem State.setCur_callback (s : State) (cur : Cursor) : (s.setCur cur).callback = s.callback := rfl
@[simp] theorem State.setCur_inflight (s : State) (cur : Cursor) : (s.setCur cur).inflight = s.inflight := rfl
@[simp] theorem State.setCur_events (s : State) (cur : Cursor) : (s.setCur cur).events = s.events := rfl
@[simp] theorem State.setCur_diags (s : State) (cur : Cursor) : (s.setCur cur).diags = s.diags := rfl
@[simp] theorem State.setCur_portCalls (s : State) (cur : Cursor) : (s.setCur cur).portCalls = s.portCalls := rfl
@[simp] theorem State.setCur_wire (s : State) (cur : Cursor) : (s.setCur cur).wire = s.wire := rfl
@[simp] theorem State.setCur_results (s : State) (cur : Cursor) : (s.setCur cur).results = s.results := rfl
@[simp] theorem State.setCur_caller (s : State) (cur : Cursor) : (s.setCur cur).caller = s.caller := rfl
@[simp] theorem State.setCur_replies (s : State) (cur : Cursor) : (s.setCur cur).replies = s.replies := rfl
@[simp] theorem State.setCur_agenda (s : State) (cur : Cursor) : (s.setCur cur).agenda = s.agenda := rfl
@[simp] theorem State.setCur_handshake (s : State) (cur : Cursor) : (s.setCur cur).handshake = s.handshake := rfl
@[simp] theorem State.setCur_openResult (s : State) (cur : Cursor) : (s.setCur cur).openResult = s.openResult := rfl
@[simp] theorem State.setCur_draws (s : State) (cur : Cursor) : (s.setCur cur).draws = s.draws := rfl

/-! ### `State.setBusy` -/

@[simp] theorem State.setBusy_cfg (s : State) (v : Bool) : (s.setBusy v).cfg = s.cfg := rfl
@[simp] theorem State.setBusy_cur (s : State) (v : Bool) : (s.setBusy v).cur = s.cur := rfl
@[simp] theorem State.setBusy_cb (s : State) (v : Bool) : (s.setBusy v).cb = s.cb := rfl
@[simp] theorem State.setBusy_opened (s : State) (v : Bool) : (s.setBusy v).opened = s.opened := rfl
@[simp] theorem State.setBusy_ackReg (s : State) (v : Bool) : (s.setBusy v).ackReg = s.ackReg := rfl
@[simp] theorem State.setBusy_txlock (s : State) (v : Bool) : (s.setBusy v).txlock = s.txlock := rfl
@[simp] theorem State.setBusy_life (s : State) (v : Bool) : (s.setBusy v).life = s.life := rfl
@[simp] theorem State.setBusy_rxBusy (s : State) (v : Bool) : (s.setBusy v).rxBusy = v := rfl
@[simp] theorem State.setBusy_callback (s : State) (v : Bool) : (s.setBusy v).callback = s.callback := rfl
@[simp] theorem State.setBusy_inflight (s : State) (v : Bool) : (s.setBusy v).inflight = s.inflight := rfl
@[simp] theorem State.setBusy_events (s : State) (v : Bool) : (s.setBusy v).events = s.events := rfl
@[simp] theorem State.setBusy_diags (s : State) (v : Bool) : (s.setBusy v).diags = s.diags := rfl
@[simp] theorem State.setBusy_portCalls (s : State) (v : Bool) : (s.setBusy v).portCalls = s.portCalls := rfl
@[simp] theorem State.setBusy_wire (s : State) (v : Bool) : (s.setBusy v).wire = s.wire := rfl
@[simp] theorem State.setBusy_results (s : State) (v : Bool) : (s.setBusy v).results = s.results := rfl
@[simp] theorem State.setBusy_caller (s : State) (v : Bool) : (s.setBusy v).caller = s.caller := rfl
@[simp] theorem State.setBusy_replies (s : State) (v : Bool) : (s.setBusy v).replies = s.replies := rfl
@[simp] theorem State.setBusy_agenda (s : State) (v : Bool) : (s.setBusy v).agenda = s.agenda := rfl
@[simp] theorem State.setBusy_handshake (s : State) (v : Bool) : (s.setBusy v).handshake = s.handshake := rfl
@[simp] theorem State.setBusy_openResult (s : State) (v : Bool) : (s.setBusy v).openResult = s.openResult := rfl
@[simp] theorem State.setBusy_draws (s : State) (v : Bool) : (s.setBusy v).draws = s.draws := rfl

/-! ### `State.setLock` -/

@[simp] theorem State.setLock_cfg (s : State) (v : TxLock) : (s.setLock v).cfg = s.cfg := rfl
@[simp] theorem State.setLock_cur (s : State) (v : TxLock) : (s.setLock v).cur = s.cur := rfl
@[simp] theorem State.setLock_cb (s : State) (v : TxLock) : (s.setLock v).cb = s.cb := rfl
@[simp] theorem State.setLock_opened (s : State) (v : TxLock) : (s.setLock v).opened = s.opened := rfl
@[simp] theorem State.setLock_ackReg (s : State) (v : TxLock) : (s.setLock v).ackReg = s.ackReg := rfl
@[simp] theorem State.setLock_txlock (s : State) (v : TxLock) : (s.setLock v).txlock = v := rfl
@[simp] theorem State.setLock_life (s : State) (v : TxLock) : (s.setLock v).life = s.life := rfl
@[simp] theorem State.setLock_rxBusy (s : State) (v : TxLock) : (s.setLock v).rxBusy = s.rxBusy := rfl
@[simp] theorem State.setLock_callback (s : State) (v : TxLock) : (s.setLock v).callback = s.callback := rfl
@[simp] theorem State.setLock_inflight (s : State) (v : TxLock) : (s.setLock v).inflight = s.inflight := rfl
@[simp] theorem State.setLock_events (s : State) (v : TxLock) : (s.setLock v).events = s.events := rfl
@[simp] theorem State.setLock_diags (s : State) (v : TxLock) : (s.setLock v).diags = s.diags := rfl
@[simp] theorem State.setLock_portCalls (s : State) (v : TxLock) : (s.setLock v).portCalls = s.portCalls := rfl
@[simp] theorem State.setLock_wire (s : State) (v : TxLock) : (s.setLock v).wire = s.wire := rfl
@[simp] theorem State.setLock_results (s : State) (v : TxLock) : (s.setLock v).results = s.results := rfl
@[simp] theorem State.setLock_caller (s : State) (v : TxLock) : (s.setLock v).caller = s.caller := rfl
@[simp] theorem State.setLock_replies (s : State) (v : TxLock) : (s.setLock v).replies = s.replies := rfl
@[simp] theorem State.setLock_agenda (s : State) (v : TxLock) : (s.setLock v).agenda = s.agenda := rfl
@[simp] theorem State.setLock_handshake (s : State) (v : TxLock) : (s.setLock v).handshake = s.handshake := rfl
@[simp] theorem State.setLock_openResult (s : State) (v : TxLock) : (s.setLock v).openResult = s.openResult := rfl
@[simp] theorem State.setLock_draws (s : State) (v : TxLock) : (s.setLock v).draws = s.draws := rfl

/-! ### `State.setAck` -/

@[simp] theorem State.setAck_cfg (s : State) (v : Option Nat) : (s.setAck v).cfg = s.cfg := rfl
@[simp] theorem State.setAck_cur (s : State) (v : Option Nat) : (s.setAck v).cur = s.cur := rfl
@[simp] theorem State.setAck_cb (s : State) (v : Option Nat) : (s.setAck v).cb = s.cb := rfl
@[simp] theorem State.setAck_opened (s : State) (v : Option Nat) : (s.setAck v).opened = s.opened := rfl
@[simp] theorem State.setAck_ackReg (s : State) (v : Option Nat) : (s.setAck v).ackReg = v := rfl
@[simp] theorem State.setAck_txlock (s : State) (v : Option Nat) : (s.setAck v).txlock = s.txlock := rfl
@[simp] theorem State.setAck_life (s : State) (v : Option Nat) : (s.setAck v).life = s.life := rfl
@[simp] theorem State.setAck_rxBusy (s : State) (v : Option Nat) : (s.setAck v).rxBusy = s.rxBusy := rfl
@[simp] theorem State.setAck_callback (s : State) (v : Option Nat) : (s.setAck v).callback = s.callback := rfl
@[simp] theorem State.setAck_inflight (s : State) (v : Option Nat) : (s.setAck v).inflight = s.inflight := rfl
@[simp] theorem State.setAck_events (s : State) (v : Option Nat) : (s.setAck v).events = s.events := rfl
@[simp] theorem State.setAck_diags (s : State) (v : Option Nat) : (s.setAck v).diags = s.diags := rfl
@[simp] theorem State.setAck_portCalls (s : State) (v : Option Nat) : (s.setAck v).portCalls = s.portCalls := rfl
@[simp] theorem State.setAck_wire (s : State) (v : Option Nat) : (s.setAck v).wire = s.wire := rfl
@[simp] theorem State.setAck_results (s : State) (v : Option Nat) : (s.setAck v).results = s.results := rfl
@[simp] theorem State.setAck_caller (s : State) (v : Option Nat) : (s.setAck v).caller = s.caller := rfl
@[simp] theorem State.setAck_replies (s : State) (v : Option Nat) : (s.setAck v).replies = s.replies := rfl
@[simp] theorem State.setAck_agenda (s : State) (v : Option Nat) : (s.setAck v).agenda = s.agenda := rfl
@[simp] theorem State.setAck_handshake (s : State) (v : Option Nat) : (s.setAck v).handshake = s.handshake := rfl
@[simp] theorem State.setAck_openResult (s : State) (v : Option Nat) : (s.setAck v).openResult = s.openResult := rfl
@[simp] theorem State.setAck_draws (s : State) (v : Option Nat) : (s.setAck v).draws = s.draws := rfl

/-! ### `State.setCallback` -/

@[simp] theorem State.setCallback_cfg (s : State) (v : Option Nat) : (s.setCallback v).cfg = s.cfg := rfl
@[simp] theorem State.setCallback_cur (s : State) (v : Option Nat) : (s.setCallback v).cur = s.cur := rfl
@[simp] theorem State.setCallback_cb (s : State) (v : Option Nat) : (s.setCallback v).cb = s.cb := rfl
@[simp] theorem State.setCallback_opened (s : State) (v : Option Nat) : (s.setCallback v).opened = s.opened := rfl
@[simp] theorem State.setCallback_ackReg (s : State) (v : Option Nat) : (s.setCallback v).ackReg = s.ackReg := rfl
@[simp] theorem State.setCallback_txlock (s : State) (v : Option Nat) : (s.setCallback v).txlock = s.txlock := rfl
@[simp] theorem State.setCallback_life (s : State) (v : Option Nat) : (s.setCallback v).life = s.life := rfl
@[simp] theorem State.setCallback_rxBusy (s : State) (v : Option Nat) : (s.setCallback v).rxBusy = s.rxBusy := rfl
@[simp] theorem State.setCallback_callback (s : State) (v : Option Nat) : (s.setCallback v).callback = v := rfl
@[simp] theorem State.setCallback_inflight (s : State) (v : Option Nat) : (s.setCallback v).inflight = s.inflight := rfl
@[simp] theorem State.setCallback_events (s : State) (v : Option Nat) : (s.setCallback v).events = s.events := rfl
@[simp] theorem State.setCallback_diags (s : State) (v : Option Nat) : (s.setCallback v).diags = s.diags := rfl
@[simp] theorem State.setCallback_portCalls (s : State) (v : Option Nat) : (s.setCallback v).portCalls = s.portCalls := rfl
@[simp] theorem State.setCallback_wire (s : State) (v : Option Nat) : (s.setCallback v).wire = s.wire := rfl
@[simp] theorem State.setCallback_results (s : State) (v : Option Nat) : (s.setCallback v).results = s.results := rfl
@[simp] theorem State.setCallback_caller (s : State) (v : Option Nat) : (s.setCallback v).caller = s.caller := rfl
@[simp] theorem State.setCallback_replies (s : State) (v : Option Nat) : (s.setCallback v).replies = s.replies := rfl
@[simp] theorem State.setCallback_agenda (s : State) (v : Option Nat) : (s.setCallback v).agenda = s.agenda := rfl
@[simp] theorem State.setCallback_handshake (s : State) (v : Option Nat) : (s.setCallback v).handshake = s.handshake := rfl
@[simp] theorem State.setCallback_openResult (s : State) (v : Option Nat) : (s.setCallback v).openResult = s.openResult := rfl
@[simp] theorem State.setCallback_draws (s : State) (v : Option Nat) : (s.setCallback v).draws = s.draws := rfl

/-! ### `State.setReplies` -/

@[simp] theorem State.setReplies_cfg (s : State) (rs : List TxReply) : (s.setReplies rs).cfg = s.cfg := rfl
@[simp] theorem State.setReplies_cur (s : State) (rs : List TxReply) : (s.setReplies rs).cur = s.cur := rfl
@[simp] theorem State.setReplies_cb (s : State) (rs : List TxReply) : (s.setReplies rs).cb = s.cb := rfl
@[simp] theorem State.setReplies_opened (s : State) (rs : List TxReply) : (s.setReplies rs).opened = s.opened := rfl
@[simp] theorem State.setReplies_ackReg (s : State) (rs : List TxReply) : (s.setReplies rs).ackReg = s.ackReg := rfl
@[simp] theorem State.setReplies_txlock (s : State) (rs : List TxReply) : (s.setReplies rs).txlock = s.txlock := rfl
@[simp] theorem State.setReplies_life (s : State) (rs : List TxReply) : (s.setReplies rs).life = s.life := rfl
@[simp] theorem State.setReplies_rxBusy (s : State) (rs : List TxReply) : (s.setReplies rs).rxBusy = s.rxBusy := rfl
@[simp] theorem State.setReplies_callback (s : State) (rs : List TxReply) : (s.setReplies rs).callback = s.callback := rfl
@[simp] theorem State.setReplies_inflight (s : State) (rs : List TxReply) : (s.setReplies rs).inflight = s.inflight := rfl
@[simp] theorem State.setReplies_events (s : State) (rs : List TxReply) : (s.setReplies rs).events = s.events := rfl
@[simp] theorem State.setReplies_diags (s : State) (rs : List TxReply) : (s.setReplies rs).diags = s.diags := rfl
@[simp] theorem State.setReplies_portCalls (s : State) (rs : List TxReply) : (s.setReplies rs).portCalls = s.portCalls := rfl
@[simp] theorem State.setReplies_wire (s : State) (rs : List TxReply) : (s.setReplies rs).wire = s.wire := rfl
@[simp] theorem State.setReplies_results (s : State) (rs : List TxReply) : (s.setReplies rs).results = s.results := rfl
@[simp] theorem State.setReplies_caller (s : State) (rs : List TxReply) : (s.setReplies rs).caller = s.caller := rfl
@[simp] theorem State.setReplies_replies (s : State) (rs : List TxReply) : (s.setReplies rs).replies = rs := rfl
@[simp] theorem State.setReplies_agenda (s : State) (rs : List TxReply) : (s.setReplies rs).agenda = s.agenda := rfl
@[simp] theorem State.setReplies_handshake (s : State) (rs : List TxReply) : (s.setReplies rs).handshake = s.handshake := rfl
@[simp] theorem State.setReplies_openResult (s : State) (rs : List TxReply) : (s.setReplies rs).openResult = s.openResult := rfl
@[simp] theorem State.setReplies_draws (s : State) (rs : List TxReply) : (s.setReplies rs).draws = s.draws := rfl

/-! ### `State.setInflight` -/

@[simp] theorem State.setInflight_cfg (s : State) (ts : List Task) : (s.setInflight ts).cfg = s.cfg := rfl
@[simp] theorem State.setInflight_cur (s : State) (ts : List Task) : (s.setInflight ts).cur = s.cur := rfl
@[simp] theorem State.setInflight_cb (s : State) (ts : List Task) : (s.setInflight ts).cb = s.cb := rfl
@[simp] theorem State.setInflight_opened (s : State) (ts : List Task) : (s.setInflight ts).opened = s.opened := rfl
@[simp] theorem State.setInflight_ackReg (s : State) (ts : List Task) : (s.setInflight ts).ackReg = s.ackReg := rfl
@[simp] theorem State.setInflight_txlock (s : State) (ts : List Task) : (s.setInflight ts).txlock = s.txlock := rfl
@[simp] theorem State.setInflight_life (s : State) (ts : List Task) : (s.setInflight ts).life = s.life := rfl
@[simp] theorem State.setInflight_rxBusy (s : State) (ts : List Task) : (s.setInflight ts).rxBusy = s.rxBusy := rfl
@[simp] theorem State.setInflight_callback (s : State) (ts : List Task) : (s.setInflight ts).callback = s.callback := rfl
@[simp] theorem State.setInflight_inflight (s : State) (ts : List Task) : (s.setInflight ts).inflight = ts := rfl
@[simp] theorem State.setInflight_events (s : State) (ts : List Task) : (s.setInflight ts).events = s.events := rfl
@[simp] theorem State.setInflight_diags (s : State) (ts : List Task) : (s.setInflight ts).diags = s.diags := rfl
@[simp] theorem State.setInflight_portCalls (s : State) (ts : List Task) : (s.setInflight ts).portCalls = s.portCalls := rfl
@[simp] theorem State.setInflight_wire (s : State) (ts : List Task) : (s.setInflight ts).wire = s.wire := rfl
@[simp] theorem State.setInflight_results (s : State) (ts : List Task) : (s.setInflight ts).results = s.results := rfl
@[simp] theorem State.setInflight_caller (s : State) (ts : List Task) : (s.setInflight ts).caller = s.caller := rfl
@[simp] theorem State.setInflight_replies (s : State) (ts : List Task) : (s.setInflight ts).replies = s.replies := rfl
@[simp] theorem State.setInflight_agenda (s : State) (ts : List Task) : (s.setInflight ts).agenda = s.agenda := rfl
@[simp] theorem State.setInflight_handshake (s : State) (ts : List Task) : (s.setInflight ts).handshake = s.handshake := rfl
@[simp] theorem State.setInflight_openResult (s : State) (ts : List Task) : (s.setInflight ts).openResult = s.openResult := rfl
@[simp] theorem State.setInflight_draws (s : State) (ts : List Task) : (s.setInflight ts).draws = s.draws := rfl

/-! ### `State.park` -/

@[simp] theorem State.park_cfg (s : State) (t : Task) : (s.park t).cfg = s.cfg := rfl
@[simp] theorem State.park_cur (s : State) (t : Task) : (s.park t).cur = s.cur := rfl
@[simp] theorem State.park_cb (s : State) (t : Task) : (s.park t).cb = s.cb := rfl
@[simp] theorem State.park_opened (s : State) (t : Task) : (s.park t).opened = s.opened := rfl
@[simp] theorem State.park_ackReg (s : State) (t : Task) : (s.park t).ackReg = s.ackReg := rfl
@[simp] theorem State.park_txlock (s : State) (t : Task) : (s.park t).txlock = s.txlock := rfl
@[simp] theorem State.park_life (s : State) (t : Task) : (s.park t).life = s.life := rfl
@[simp] theorem State.park_rxBusy (s : State) (t : Task) : (s.park t).rxBusy = s.rxBusy := rfl
@[simp] theorem State.park_callback (s : State) (t : Task) : (s.park t).callback = s.callback := rfl
@[simp] theorem State.park_inflight (s : State) (t : Task) : (s.park t).inflight = t :: s.inflight := rfl
@[simp] theorem State.park_events (s : State) (t : Task) : (s.park t).events = s.events := rfl
@[simp] theorem State.park_diags (s : State) (t : Task) : (s.park t).diags = s.diags := rfl
@[simp] theorem State.park_portCalls (s : State) (t : Task) : (s.park t).portCalls = s.portCalls := rfl
@[simp] theorem State.park_wire (s : State) (t : Task) : (s.park t).wire = s.wire := rfl
@[simp] theorem State.park_results (s : State) (t : Task) : (s.park t).results = s.results := rfl
@[simp] theorem State.park_caller (s : State) (t : Task) : (s.park t).caller = s.caller := rfl
@[simp] theorem State.park_replies (s : State) (t : Task) : (s.park t).replies = s.replies := rfl
@[simp] theorem State.park_agenda (s : State) (t : Task) : (s.park t).agenda = s.agenda := rfl
@[simp] theorem State.park_handshake (s : State) (t : Task) : (s.park t).handshake = s.handshake := rfl
@[simp] theorem State.park_openResult (s : State) (t : Task) : (s.park t).openResult = s.openResult := rfl
@[simp] theorem State.park_draws (s : State) (t : Task) : (s.park t).draws = s.draws := rfl

/-! ### `State.setCaller` -/

@[simp] theorem State.setCaller_cfg (s : State) (c : Caller) : (s.setCaller c).cfg = s.cfg := rfl
@[simp] theorem State.setCaller_cur (s : State) (c : Caller) : (s.setCaller c).cur = s.cur := rfl
@[simp] theorem State.setCaller_cb (s : State) (c : Caller) : (s.setCaller c).cb = s.cb := rfl
@[simp] theorem State.setCaller_opened (s : State) (c : Caller) : (s.setCaller c).opened = s.opened := rfl
@[simp] theorem State.setCaller_ackReg (s : State) (c : Caller) : (s.setCaller c).ackReg = s.ackReg := rfl
@[simp] theorem State.setCaller_txlock (s : State) (c : Caller) : (s.setCaller c).txlock = s.txlock := rfl
@[simp] theorem State.setCaller_life (s : State) (c : Caller) : (s.setCaller c).life = s.life := rfl
@[simp] theorem State.setCaller_rxBusy (s : State) (c : Caller) : (s.setCaller c).rxBusy = s.rxBusy := rfl
@[simp] theorem State.setCaller_callback (s : State) (c : Caller) : (s.setCaller c).callback = s.callback := rfl
@[simp] theorem State.setCaller_inflight (s : State) (c : Caller) : (s.setCaller c).inflight = s.inflight := rfl
@[simp] theorem State.setCaller_events (s : State) (c : Caller) : (s.setCaller c).events = s.events := rfl
@[simp] theorem State.setCaller_diags (s : State) (c : Caller) : (s.setCaller c).diags = s.diags := rfl
@[simp] theorem State.setCaller_portCalls (s : State) (c : Caller) : (s.setCaller c).portCalls = s.portCalls := rfl
@[simp] theorem State.setCaller_wire (s : State) (c : Caller) : (s.setCaller c).wire = s.wire := rfl
@[simp] theorem State.setCaller_results (s : State) (c : Caller) : (s.setCaller c).results = s.results := rfl
@[simp] theorem State.setCaller_caller (s : State) (c : Caller) : (s.setCaller c).caller = c := rfl
@[simp] theorem State.setCaller_replies (s : State) (c : Caller) : (s.setCaller c).replies = s.replies := rfl
@[simp] theorem State.setCaller_agenda (s : State) (c : Caller) : (s.setCaller c).agenda = s.agenda := rfl
@[simp] theorem State.setCaller_handshake (s : State) (c : Caller) : (s.setCaller c).handshake = s.handshake := rfl
@[simp] theorem State.setCaller_openResult (s : State) (c : Caller) : (s.setCaller c).openResult = s.openResult := rfl
@[simp] theorem State.setCaller_draws (s : State) (c : Caller) : (s.setCaller c).draws = s.draws := rfl

/-! ### `State.setCb` -/

@[simp] theorem State.setCb_cfg (s : State) (ch : Nat) (h : Handle) : (s.setCb ch h).cfg = s.cfg := rfl
@[simp] theorem State.setCb_cur (s : State) (ch : Nat) (h : Handle) : (s.setCb ch h).cur = s.cur := rfl
@[simp] theorem State.setCb_cb (s : State) (ch : Nat) (h : Handle) : (s.setCb ch h).cb = s.cb.set (slot ch) (some h) := rfl
@[simp] theorem State.setCb_opened (s : State) (ch : Nat) (h : Handle) : (s.setCb ch h).opened = s.opened := rfl
@[simp] theorem State.setCb_ackReg (s : State) (ch : Nat) (h : Handle) : (s.setCb ch h).ackReg = s.ackReg := rfl
@[simp] theorem State.setCb_txlock (s : State) (ch : Nat) (h : Handle) : (s.setCb ch h).txlock = s.txlock := rfl
@[simp] theorem State.setCb_life (s : State) (ch : Nat) (h : Handle) : (s.setCb ch h).life = s.life := rfl
@[simp] theorem State.setCb_rxBusy (s : State) (ch : Nat) (h : Handle) : (s.setCb ch h).rxBusy = s.rxBusy := rfl
@[simp] theorem State.setCb_callback (s : State) (ch : Nat) (h : Handle) : (s.setCb ch h).callback = s.callback := rfl
@[simp] theorem State.setCb_inflight (s : State) (ch : Nat) (h : Handle) : (s.setCb ch h).inflight = s.inflight := rfl
@[simp] theorem State.setCb_events (s : State) (ch : Nat) (h : Handle) : (s.setCb ch h).events = s.events := rfl
@[simp] theorem State.setCb_diags (s : State) (ch : Nat) (h : Handle) : (s.setCb ch h).diags = s.diags := rfl
@[simp] theorem State.setCb_portCalls (s : State) (ch : Nat) (h : Handle) : (s.setCb ch h).portCalls = s.portCalls := rfl
@[simp] theorem State.setCb_wire (s : State) (ch : Nat) (h : Handle) : (s.setCb ch h).wire = s.wire := rfl
@[simp] theorem State.setCb_results (s : State) (ch : Nat) (h : Handle) : (s.setCb ch h).results = s.results := rfl
@[simp] theorem State.setCb_caller (s : State) (ch : Nat) (h : Handle) : (s.setCb ch h).caller = s.caller := rfl
@[simp] theorem State.setCb_replies (s : State) (ch : Nat) (h : Handle) : (s.setCb ch h).replies = s.replies := rfl
@[simp] theorem State.setCb_agenda (s : State) (ch : Nat) (h : Handle) : (s.setCb ch h).agenda = s.agenda := rfl
@[simp] theorem State.setCb_handshake (s : State) (ch : Nat) (h : Handle) : (s.setCb ch h).handshake = s.handshake := rfl
@[simp] theorem State.setCb_openResult (s : State) (ch : Nat) (h : Handle) : (s.setCb ch h).openResult = s.openResult := rfl
@[simp] theorem State.setCb_draws (s : State) (ch : Nat) (h : Handle) : (s.setCb ch h).draws = s.draws := rfl

/-! ### `State.setOpened` -/

@[simp] theorem State.setOpened_cfg (s : State) (ch : Nat) : (s.setOpened ch).cfg = s.cfg := rfl
@[simp] theorem State.setOpened_cur (s : State) (ch : Nat) : (s.setOpened ch).cur = s.cur := rfl
@[simp] theorem State.setOpened_cb (s : State) (ch : Nat) : (s.setOpened ch).cb = s.cb := rfl
@[simp] theorem State.setOpened_opened (s : State) (ch : Nat) : (s.setOpened ch).opened = s.opened.set (slot ch) true := rfl
@[simp] theorem State.setOpened_ackReg (s : State) (ch : Nat) : (s.setOpened ch).ackReg = s.ackReg := rfl
@[simp] theorem State.setOpened_txlock (s : State) (ch : Nat) : (s.setOpened ch).txlock = s.txlock := rfl
@[simp] theorem State.setOpened_life (s : State) (ch : Nat) : (s.setOpened ch).life = s.life := rfl
@[simp] theorem State.setOpened_rxBusy (s : State) (ch : Nat) : (s.setOpened ch).rxBusy = s.rxBusy := rfl
@[simp] theorem State.setOpened_callback (s : State) (ch : Nat) : (s.setOpened ch).callback = s.callback := rfl
@[simp] theorem State.setOpened_inflight (s : State) (ch : Nat) : (s.setOpened ch).inflight = s.inflight := rfl
@[simp] theorem State.setOpened_events (s : State) (ch : Nat) : (s.setOpened ch).events = s.events := rfl
@[simp] theorem State.setOpened_diags (s : State) (ch : Nat) : (s.setOpened ch).diags = s.diags := rfl
@[simp] theorem State.setOpened_portCalls (s : State) (ch : Nat) : (s.setOpened ch).portCalls = s.portCalls := rfl
@[simp] theorem State.setOpened_wire (s : State) (ch : Nat) : (s.setOpened ch).wire = s.wire := rfl
@[simp] theorem State.setOpened_results (s : State) (ch : Nat) : (s.setOpened ch).results = s.results := rfl
@[simp] theorem State.setOpened_caller (s : State) (ch : Nat) : (s.setOpened ch).caller = s.caller := rfl
@[simp] theorem State.setOpened_replies (s : State) (ch : Nat) : (s.setOpened ch).replies = s.replies := rfl
@[simp] theorem State.setOpened_agenda (s : State) (ch : Nat) : (s.setOpened ch).agenda = s.agenda := rfl
@[simp] theorem State.setOpened_handshake (s : State) (ch : Nat) : (s.setOpened ch).handshake = s.handshake := rfl
@[simp] theorem State.setOpened_openResult (s : State) (ch : Nat) : (s.setOpened ch).openResult = s.openResult := rfl
@[simp] theorem State.setOpened_draws (s : State) (ch : Nat) : (s.setOpened ch).draws = s.draws := rfl

/-! ### The registry -/

theorem slot_val (ch : Nat) (h : ch ≤ 63) : (slot ch).val = ch := by
  simp [slot, Fin.ofNat, Config.numIds]; omega

theorem slot_inj {a b : Nat} (ha : a ≤ 63) (hb : b ≤ 63) (h : slot a = slot b) : a = b := by
  have := congrArg Fin.val h
  rwa [slot_val a ha, slot_val b hb] at this

theorem known_le {cfg : Cfg} {ch : Nat} (h : known cfg ch = true) : ch ≤ 63 := by
  have := cfg.nData.isLt
  simp [known, Config.numIds] at h this
  omega

/-- `cb[ch]` after a registration on the same slot. -/
theorem State.cbAt_setCb_same (s : State) (ch : Nat) (h : Handle) : (s.setCb ch h).cbAt ch = some h := by
  simp [State.cbAt, State.setCb]

/-- A registration leaves every other channel's callback. -/
theorem State.cbAt_setCb_other (s : State) {ch c : Nat} (h : Handle) (hch : ch ≤ 63) (hc : c ≤ 63) (hne : c ≠ ch) :
    (s.setCb ch h).cbAt c = s.cbAt c := by
  have : (slot ch).val ≠ (slot c).val := by
    rw [slot_val ch hch, slot_val c hc]; exact fun e => hne e.symm
  simp [State.cbAt, State.setCb, this]

/-- `open[ch]` after SET_OPEN of the same slot. -/
theorem State.openAt_setOpened_same (s : State) (ch : Nat) : (s.setOpened ch).openAt ch = true := by
  simp [State.openAt, State.setOpened]

/-- SET_OPEN clears no flag. -/
theorem State.openAt_setOpened_mono (s : State) (ch c : Nat) (h : s.openAt c = true) :
    (s.setOpened ch).openAt c = true := by
  simp only [State.openAt, State.setOpened, Fin.getElem_fin, Vector.getElem_set] at *
  split <;> simp_all

/-! ### What `dispatch` leaves alone -/

/-- `dispatch` writes the events, the diagnostic trace and the running callback, and nothing else. -/
theorem dispatch_cases (ch : Nat) (bs : Bytes) (s : State) :
    (known s.cfg ch = false ∧ dispatch ch bs s = s.note (.unknownChannel ch)) ∨
    (known s.cfg ch = true ∧ s.cbAt ch = none ∧ dispatch ch bs s = s.note (.noCallback ch)) ∨
    (known s.cfg ch = true ∧ ∃ h, s.cbAt ch = some h ∧
      dispatch ch bs s = (s.emit (.deliver ch h bs)).setCallback (some ch)) := by
  unfold dispatch
  cases hk : known s.cfg ch
  · simp
  · cases hc : s.cbAt ch <;> simp

@[simp] theorem dispatch_cfg (ch : Nat) (bs : Bytes) (s : State) : (dispatch ch bs s).cfg = s.cfg := by
  rcases dispatch_cases ch bs s with ⟨_, h⟩ | ⟨_, _, h⟩ | ⟨_, _, _, h⟩ <;> rw [h] <;> rfl

@[simp] theorem dispatch_cur (ch : Nat) (bs : Bytes) (s : State) : (dispatch ch bs s).cur = s.cur := by
  rcases dispatch_cases ch bs s with ⟨_, h⟩ | ⟨_, _, h⟩ | ⟨_, _, _, h⟩ <;> rw [h] <;> rfl

@[simp] theorem dispatch_cb (ch : Nat) (bs : Bytes) (s : State) : (dispatch ch bs s).cb = s.cb := by
  rcases dispatch_cases ch bs s with ⟨_, h⟩ | ⟨_, _, h⟩ | ⟨_, _, _, h⟩ <;> rw [h] <;> rfl

@[simp] theorem dispatch_opened (ch : Nat) (bs : Bytes) (s : State) : (dispatch ch bs s).opened = s.opened := by
  rcases dispatch_cases ch bs s with ⟨_, h⟩ | ⟨_, _, h⟩ | ⟨_, _, _, h⟩ <;> rw [h] <;> rfl

@[simp] theorem dispatch_ackReg (ch : Nat) (bs : Bytes) (s : State) : (dispatch ch bs s).ackReg = s.ackReg := by
  rcases dispatch_cases ch bs s with ⟨_, h⟩ | ⟨_, _, h⟩ | ⟨_, _, _, h⟩ <;> rw [h] <;> rfl

@[simp] theorem dispatch_txlock (ch : Nat) (bs : Bytes) (s : State) : (dispatch ch bs s).txlock = s.txlock := by
  rcases dispatch_cases ch bs s with ⟨_, h⟩ | ⟨_, _, h⟩ | ⟨_, _, _, h⟩ <;> rw [h] <;> rfl

@[simp] theorem dispatch_life (ch : Nat) (bs : Bytes) (s : State) : (dispatch ch bs s).life = s.life := by
  rcases dispatch_cases ch bs s with ⟨_, h⟩ | ⟨_, _, h⟩ | ⟨_, _, _, h⟩ <;> rw [h] <;> rfl

@[simp] theorem dispatch_rxBusy (ch : Nat) (bs : Bytes) (s : State) : (dispatch ch bs s).rxBusy = s.rxBusy := by
  rcases dispatch_cases ch bs s with ⟨_, h⟩ | ⟨_, _, h⟩ | ⟨_, _, _, h⟩ <;> rw [h] <;> rfl

@[simp] theorem dispatch_inflight (ch : Nat) (bs : Bytes) (s : State) : (dispatch ch bs s).inflight = s.inflight := by
  rcases dispatch_cases ch bs s with ⟨_, h⟩ | ⟨_, _, h⟩ | ⟨_, _, _, h⟩ <;> rw [h] <;> rfl

@[simp] theorem dispatch_portCalls (ch : Nat) (bs : Bytes) (s : State) : (dispatch ch bs s).portCalls = s.portCalls := by
  rcases dispatch_cases ch bs s with ⟨_, h⟩ | ⟨_, _, h⟩ | ⟨_, _, _, h⟩ <;> rw [h] <;> rfl

@[simp] theorem dispatch_wire (ch : Nat) (bs : Bytes) (s : State) : (dispatch ch bs s).wire = s.wire := by
  rcases dispatch_cases ch bs s with ⟨_, h⟩ | ⟨_, _, h⟩ | ⟨_, _, _, h⟩ <;> rw [h] <;> rfl

@[simp] theorem dispatch_results (ch : Nat) (bs : Bytes) (s : State) : (dispatch ch bs s).results = s.results := by
  rcases dispatch_cases ch bs s with ⟨_, h⟩ | ⟨_, _, h⟩ | ⟨_, _, _, h⟩ <;> rw [h] <;> rfl

@[simp] theorem dispatch_caller (ch : Nat) (bs : Bytes) (s : State) : (dispatch ch bs s).caller = s.caller := by
  rcases dispatch_cases ch bs s with ⟨_, h⟩ | ⟨_, _, h⟩ | ⟨_, _, _, h⟩ <;> rw [h] <;> rfl

@[simp] theorem dispatch_replies (ch : Nat) (bs : Bytes) (s : State) : (dispatch ch bs s).replies = s.replies := by
  rcases dispatch_cases ch bs s with ⟨_, h⟩ | ⟨_, _, h⟩ | ⟨_, _, _, h⟩ <;> rw [h] <;> rfl

@[simp] theorem dispatch_agenda (ch : Nat) (bs : Bytes) (s : State) : (dispatch ch bs s).agenda = s.agenda := by
  rcases dispatch_cases ch bs s with ⟨_, h⟩ | ⟨_, _, h⟩ | ⟨_, _, _, h⟩ <;> rw [h] <;> rfl

@[simp] theorem dispatch_handshake (ch : Nat) (bs : Bytes) (s : State) : (dispatch ch bs s).handshake = s.handshake := by
  rcases dispatch_cases ch bs s with ⟨_, h⟩ | ⟨_, _, h⟩ | ⟨_, _, _, h⟩ <;> rw [h] <;> rfl

@[simp] theorem dispatch_openResult (ch : Nat) (bs : Bytes) (s : State) : (dispatch ch bs s).openResult = s.openResult := by
  rcases dispatch_cases ch bs s with ⟨_, h⟩ | ⟨_, _, h⟩ | ⟨_, _, _, h⟩ <;> rw [h] <;> rfl

@[simp] theorem dispatch_draws (ch : Nat) (bs : Bytes) (s : State) : (dispatch ch bs s).draws = s.draws := by
  rcases dispatch_cases ch bs s with ⟨_, h⟩ | ⟨_, _, h⟩ | ⟨_, _, _, h⟩ <;> rw [h] <;> rfl

/-! ### The checks before a call's work -/

theorem whenAlive_of_alive {s : State} (h : s.life = .alive) (k : Result) : whenAlive s k = k := by
  simp [whenAlive, h]

theorem whenAlive_of_tornDown {s : State} (h : s.life = .tornDown) (k : Result) :
    whenAlive s k = .refused .afterTeardown := by
  simp [whenAlive, h]

/-- A checked call that goes on was made on an engine alive, and is its work. -/
theorem whenAlive_next {s t : State} {k : Result} (h : whenAlive s k = .next t) : s.life = .alive ∧ k = .next t := by
  cases hl : s.life with
  | alive => exact ⟨rfl, whenAlive_of_alive hl k ▸ h⟩
  | tornDown => simp [whenAlive_of_tornDown hl] at h

theorem onChannel_of_known {s : State} {ch : Nat} (hl : s.life = .alive) (hc : ch ≤ s.cfg.nData.val) (k : Result) :
    onChannel ch s k = k := by
  simp [onChannel, whenAlive_of_alive hl, known, hc]

/-- A checked call on a channel that goes on was made on an engine alive and on a known channel, and is its work. -/
theorem onChannel_next {s t : State} {ch : Nat} {k : Result} (h : onChannel ch s k = .next t) :
    s.life = .alive ∧ ch ≤ s.cfg.nData.val ∧ k = .next t := by
  obtain ⟨hl, h⟩ := whenAlive_next h
  by_cases hc : ch ≤ s.cfg.nData.val <;> simp_all [known]

end Sys2Proof.Machine
end

