-- ==== Sys2Proof/Laws/Encoding.lean ====
section
/-! SUPPORT. Laws of the wire format: fields packed and unpacked, the control octet's table, the codec's arithmetic and
the writer's segments. -/

namespace Sys2Proof

/-! ### Fields -/

theorem chanOf_le (a : Byte) : chanOf a ≤ 63 := by
  simp [chanOf, BitVec.toNat_ushiftRight, Nat.shiftRight_eq_div_pow]; omega

theorem lenOf_le (l : Byte) : lenOf l ≤ 127 := by
  simp [lenOf, BitVec.toNat_ushiftRight, Nat.shiftRight_eq_div_pow]; omega

theorem chanOf_addrByte (f : Frame) : chanOf (addrByte f) = f.ch.toNat := by
  have h1 := f.ch.isLt
  have h2 := f.addrLow.isLt
  simp only [chanOf, addrByte, BitVec.toNat_ushiftRight, BitVec.toNat_append, Nat.shiftRight_eq_div_pow]
  rw [← Nat.shiftLeft_add_eq_or_of_lt h2, Nat.shiftLeft_eq]
  omega

theorem lenOf_lenByte (f : Frame) (h : f.payload.length ≤ 127) : lenOf (lenByte f) = f.payload.length := by
  have h2 := f.lenLow.isLt
  simp only [lenOf, lenByte, BitVec.toNat_ushiftRight, BitVec.toNat_append, Nat.shiftRight_eq_div_pow]
  rw [← Nat.shiftLeft_add_eq_or_of_lt h2, Nat.shiftLeft_eq]
  simp only [BitVec.toNat_ofNat]
  omega

/-- Packing and unpacking a frame gives it back. -/
theorem frameOf_bytes (f : Frame) : frameOf (addrByte f) (lenByte f) f.payload f.fcs = f := by
  obtain ⟨ch, al, ll, p, fcs⟩ := f
  simp only [frameOf, addrByte, lenByte, Frame.mk.injEq, and_true]
  refine ⟨?_, ?_, ?_⟩
  · ext i hi
    rw [BitVec.getElem_extractLsb']
    exact (BitVec.getLsbD_append (x := ch) (y := al)).trans
      (by simp [BitVec.getLsbD_eq_getElem hi, show ¬ 2 + i ≤ 1 by omega])
  · ext i hi
    rw [BitVec.getElem_extractLsb']
    exact (BitVec.getLsbD_append (x := ch) (y := al)).trans (by simp [hi])
  · ext i hi
    rw [BitVec.getElem_extractLsb']
    exact (BitVec.getLsbD_append (x := BitVec.ofNat 7 p.length) (y := ll)).trans (by simp [hi])

/-- Unpacking and packing an address octet gives it back. -/
theorem addrByte_frameOf (a l : Byte) (p : Bytes) (f : Byte) : addrByte (frameOf a l p f) = a := by
  simp only [addrByte, frameOf]
  ext i hi
  simp only [BitVec.getElem_append, BitVec.getElem_extractLsb']
  have h8 : i < 8 := by omega
  split
  · simp [BitVec.getLsbD_eq_getElem h8]
  · next h => rw [show 2 + (i - 2) = i by omega]; simp [BitVec.getLsbD_eq_getElem h8]

theorem lenByte_frameOf (a l : Byte) (p : Bytes) (f : Byte) (h : p.length = lenOf l) :
    lenByte (frameOf a l p f) = l := by
  have h2 : BitVec.ofNat 7 p.length = l.extractLsb' 1 7 := by
    apply BitVec.eq_of_toNat_eq
    rw [h]
    simp [lenOf, BitVec.toNat_ushiftRight, Nat.shiftRight_eq_div_pow]
  simp only [lenByte, frameOf, h2]
  ext i hi
  simp only [BitVec.getElem_append, BitVec.getElem_extractLsb']
  have h8 : i < 8 := by omega
  split
  · simp [BitVec.getLsbD_eq_getElem h8]
  · next h => rw [show 1 + (i - 1) = i by omega]; simp [BitVec.getLsbD_eq_getElem h8]

/-- A frame fits the wire format. -/
theorem Frame.ok_iff {f : Frame} : f.ok = true ↔ f.payload.length ≤ 127 ∧ addrByte f ≠ Config.marker := by
  unfold Frame.ok
  rw [Bool.and_eq_true, decide_eq_true_eq, bne_iff_ne]
  exact Iff.rfl

/-! ### The control octet -/

theorem pfOf_ctrlByte (k : FrameKind) (pf : Bool) : pfOf (ctrlByte k.code pf) = pf := by
  cases k <;> cases pf <;> decide

theorem kindOf_ctrlByte (k : FrameKind) (pf : Bool) : kindOf (ctrlByte k.code pf) = some k := by
  cases k <;> cases pf <;> decide

/-- Only UA with the poll/final bit has the acknowledgement's default control octet. -/
theorem ctrlByte_eq_ack (k : FrameKind) (pf : Bool) :
    ctrlByte k.code pf = Config.ackCtrlDefault ↔ k = .ua ∧ pf = true := by
  cases k <;> cases pf <;> decide

/-- An octet that names a kind is that kind's octet with its own poll/final bit. -/
theorem ctrlByte_of_kindOf {c : Byte} {k : FrameKind} (h : kindOf c = some k) : ctrlByte k.code (pfOf c) = c := by
  have hall : ∀ n : Fin 256, ∀ k : FrameKind, kindOf (BitVec.ofNat 8 n.val) = some k →
      ctrlByte k.code (pfOf (BitVec.ofNat 8 n.val)) = BitVec.ofNat 8 n.val := by
    intro n k
    cases k <;> revert n <;> decide +kernel
  have := hall ⟨c.toNat, c.isLt⟩ k
  simp only [BitVec.ofNat_toNat, BitVec.setWidth_eq] at this
  exact this h

/-- The control octet and the frame of an instruction read from the wire. -/
theorem frameParts_instrOf (c : Byte) (f : Frame) : frameParts (instrOf c f) = some (c, f) := by
  unfold instrOf
  split
  · next h => simp [frameParts, h.1]
  · split <;> simp_all [frameParts, ctrlByte_of_kindOf]

end Sys2Proof

namespace Sys2Proof.Machine

/-! ### The codec -/

/-- The transmitted FCS is the complement of the CRC (40_codec.md R111, R117). -/
theorem fcsOf_eq_not (a c l : Byte) : fcsOf a c l = ~~~ crc8 [a, c, l] := by
  apply BitVec.eq_of_toNat_eq
  have h := (crc8 [a, c, l]).isLt
  unfold fcsOf
  rw [BitVec.toNat_sub, BitVec.toNat_not, show BitVec.toNat (0xFF : Byte) = 255 from rfl]
  omega

theorem encodeHeader_addr_toNat {ch : Nat} (h : ch ≤ 63) (kind : Byte) (pf : Bool) (n : Nat) :
    (encodeHeader ch kind pf n).addr = BitVec.ofNat 8 (4 * ch + 3) := by
  have hall : ∀ c : Fin 64, (BitVec.ofNat 8 c.val <<< 2) ||| (0x03 : Byte) = BitVec.ofNat 8 (4 * c.val + 3) := by decide
  exact hall ⟨ch, by omega⟩

theorem encodeHeader_len_toNat {n : Nat} (h : n ≤ 127) (ch : Nat) (kind : Byte) (pf : Bool) :
    (encodeHeader ch kind pf n).len = BitVec.ofNat 8 (2 * n + 1) := by
  have hall : ∀ c : Fin 128, (BitVec.ofNat 8 c.val <<< 1) ||| (0x01 : Byte) = BitVec.ofNat 8 (2 * c.val + 1) := by decide
  exact hall ⟨n, by omega⟩

/-- The channel id of an encoded header. -/
theorem chanOf_encodeHeader {ch : Nat} (h : ch ≤ 63) (kind : Byte) (pf : Bool) (n : Nat) :
    chanOf (encodeHeader ch kind pf n).addr = ch := by
  rw [encodeHeader_addr_toNat h]
  simp only [chanOf, BitVec.toNat_ushiftRight, BitVec.toNat_ofNat, Nat.shiftRight_eq_div_pow]
  omega

/-- The length of an encoded header. -/
theorem lenOf_encodeHeader {n : Nat} (h : n ≤ 127) (ch : Nat) (kind : Byte) (pf : Bool) :
    lenOf (encodeHeader ch kind pf n).len = n := by
  rw [encodeHeader_len_toNat h]
  simp only [lenOf, BitVec.toNat_ushiftRight, BitVec.toNat_ofNat, Nat.shiftRight_eq_div_pow]
  omega

/-- No encoded address octet is the marker. -/
theorem encodeHeader_addr_ne_marker {ch : Nat} (h : ch ≤ 63) (kind : Byte) (pf : Bool) (n : Nat) :
    (encodeHeader ch kind pf n).addr ≠ Config.marker := by
  rw [encodeHeader_addr_toNat h]
  have hall : ∀ c : Fin 64, BitVec.ofNat 8 (4 * c.val + 3) ≠ Config.marker := by decide
  exact hall ⟨ch, by omega⟩

/-! ### The writer's segments -/

theorem segmentsFuel_flatten (n : Nat) (p : Bytes) (h : p.length ≤ n) : (segmentsFuel n p).flatten = p := by
  induction n generalizing p with
  | zero => cases p with
    | nil => rfl
    | cons b p => simp at h
  | succ n ih =>
    cases p with
    | nil => rfl
    | cons b p =>
      simp only [segmentsFuel, List.flatten_cons]
      rw [ih _ (by simp [Config.segLen] at h ⊢; omega), List.take_append_drop]

/-- Every segment has 1 to 127 octets (41_writer.md R131). -/
theorem segmentsFuel_length {n : Nat} {p : Bytes} {seg : Bytes} (h : seg ∈ segmentsFuel n p) :
    1 ≤ seg.length ∧ seg.length ≤ 127 := by
  induction n generalizing p with
  | zero => simp [segmentsFuel] at h
  | succ n ih =>
    cases p with
    | nil => simp [segmentsFuel] at h
    | cons b p =>
      simp only [segmentsFuel, List.mem_cons] at h
      rcases h with rfl | h
      · simp [Config.segLen]
      · exact ih h

end Sys2Proof.Machine
end

