-- ==== Sys2Proof/Laws/Memory.lean ====
section
/-! SUPPORT. The laws of the reassembly buffer's memory: read after write, every operation keeps the canonical form and
the address bound, strings are stored and read back. -/

namespace Sys2Proof.Machine

/-! ### One octet -/

/-- A canonical memory from `k` up reads as unlisted below `k`. -/
theorem Memory.read_below {m : Memory} {k a : Nat} (h : Memory.wfFrom k m = true) (ha : a < k) :
    Memory.read m a = unlisted := by
  induction m generalizing k with
  | nil => rfl
  | cons c m ih =>
    obtain ⟨j, v⟩ := c
    simp only [Memory.wfFrom, Bool.and_eq_true, decide_eq_true_eq] at h
    have hj : j ≠ a := by omega
    simp only [Memory.read, hj, if_false]
    exact ih h.2 (by omega)

theorem Memory.wfFrom_mono {m : Memory} {k j : Nat} (h : Memory.wfFrom k m = true) (hj : j ≤ k) :
    Memory.wfFrom j m = true := by
  cases m with
  | nil => rfl
  | cons c m =>
    obtain ⟨i, v⟩ := c
    simp only [Memory.wfFrom, Bool.and_eq_true, decide_eq_true_eq] at h ⊢
    exact ⟨⟨by omega, h.1.2⟩, h.2⟩

theorem Memory.put_wfFrom {m : Memory} {a : Nat} (b : Byte) (h : Memory.wfFrom (a + 1) m = true) :
    Memory.wfFrom a (Memory.put m a b) = true := by
  unfold Memory.put
  split
  · exact Memory.wfFrom_mono h (by omega)
  · next hb => simp [Memory.wfFrom, h, hb]

/-- A write keeps the canonical form. -/
theorem Memory.write_wfFrom {m : Memory} {k a : Nat} (b : Byte) (h : Memory.wfFrom k m = true) (hk : k ≤ a) :
    Memory.wfFrom k (Memory.write m a b) = true := by
  induction m generalizing k with
  | nil => exact Memory.wfFrom_mono (Memory.put_wfFrom b (m := []) rfl) hk
  | cons c m ih =>
    obtain ⟨j, v⟩ := c
    have h' := h
    simp only [Memory.wfFrom, Bool.and_eq_true, decide_eq_true_eq] at h
    unfold Memory.write
    split
    · next hlt =>
      refine Memory.wfFrom_mono (Memory.put_wfFrom b ?_) hk
      simp only [Memory.wfFrom, Bool.and_eq_true, decide_eq_true_eq]
      exact ⟨⟨by omega, h.1.2⟩, h.2⟩
    · split
      · next heq =>
        subst heq
        exact Memory.wfFrom_mono (Memory.put_wfFrom b h.2) hk
      · next hlt hne =>
        simp only [Memory.wfFrom, Bool.and_eq_true, decide_eq_true_eq]
        exact ⟨h.1, ih h.2 (by omega)⟩

/-- A write keeps the canonical form. -/
theorem Memory.write_wf {m : Memory} (a : Nat) (b : Byte) (h : m.wf = true) : (Memory.write m a b).wf = true :=
  Memory.write_wfFrom b h (Nat.zero_le a)

theorem Memory.read_put {m : Memory} {a : Nat} (b : Byte) (h : Memory.wfFrom (a + 1) m = true) (c : Nat) :
    Memory.read (Memory.put m a b) c = if a = c then b else Memory.read m c := by
  unfold Memory.put
  by_cases hb : b = unlisted
  · simp only [hb, if_true]
    by_cases hc : a = c
    · subst hc; simpa using Memory.read_below h (by omega)
    · simp [hc]
  · simp [hb, Memory.read]

/-- Read after write. -/
theorem Memory.read_write {m : Memory} {k : Nat} (h : Memory.wfFrom k m = true) (a : Nat) (b : Byte) (c : Nat) :
    Memory.read (Memory.write m a b) c = if a = c then b else Memory.read m c := by
  induction m generalizing k with
  | nil => exact Memory.read_put (m := []) b rfl c
  | cons d m ih =>
    obtain ⟨j, v⟩ := d
    simp only [Memory.wfFrom, Bool.and_eq_true, decide_eq_true_eq] at h
    unfold Memory.write
    split
    · next hlt =>
      refine Memory.read_put b ?_ c
      simp only [Memory.wfFrom, Bool.and_eq_true, decide_eq_true_eq]
      exact ⟨⟨by omega, h.1.2⟩, h.2⟩
    · split
      · next heq =>
        subst heq
        rw [Memory.read_put b h.2 c]
        by_cases hc : a = c <;> simp [hc, Memory.read]
      · next hlt hne =>
        simp only [Memory.read]
        by_cases hj : j = c
        · have : a ≠ c := fun e => hne (e.trans hj.symm)
          simp [hj, this]
        · simp [hj, ih h.2]

/-- The address bound `n` on every listed cell. -/
abbrev Memory.below (m : Memory) (n : Nat) : Prop := m.all (fun cell => decide (cell.1 < n)) = true

theorem Memory.put_below {m : Memory} {n a : Nat} (b : Byte) (h : Memory.below m n) (ha : a < n) :
    Memory.below (Memory.put m a b) n := by
  unfold Memory.put
  split
  · exact h
  · simp only [Memory.below, List.all_cons, Bool.and_eq_true, decide_eq_true_eq]
    exact ⟨ha, h⟩

/-- A write below the bound keeps the bound. -/
theorem Memory.write_below {m : Memory} {n a : Nat} (b : Byte) (h : Memory.below m n) (ha : a < n) :
    Memory.below (Memory.write m a b) n := by
  induction m with
  | nil => exact Memory.put_below b h ha
  | cons c m ih =>
    obtain ⟨j, v⟩ := c
    have h' := h
    simp only [Memory.below, List.all_cons, Bool.and_eq_true, decide_eq_true_eq] at h
    unfold Memory.write
    split
    · exact Memory.put_below b h' ha
    · split
      · exact Memory.put_below b h.2 ha
      · simp only [Memory.below, List.all_cons, Bool.and_eq_true, decide_eq_true_eq]
        exact ⟨h.1, ih h.2⟩

/-! ### Byte strings -/

theorem Memory.writeBytes_wf {m : Memory} (a : Nat) (bs : Bytes) (h : m.wf = true) :
    (Memory.writeBytes m a bs).wf = true := by
  induction bs generalizing m a with
  | nil => exact h
  | cons b bs ih => exact ih (a + 1) (Memory.write_wf a b h)

theorem Memory.writeBytes_below {m : Memory} {n : Nat} (a : Nat) (bs : Bytes) (h : Memory.below m n)
    (hb : a + bs.length ≤ n) : Memory.below (Memory.writeBytes m a bs) n := by
  induction bs generalizing m a with
  | nil => exact h
  | cons b bs ih =>
    simp only [List.length_cons] at hb
    exact ih (a + 1) (Memory.write_below b h (by omega)) (by omega)

/-- Two strings stored one after the other are their concatenation stored at once. -/
theorem Memory.writeBytes_append (m : Memory) (a : Nat) (x y : Bytes) :
    Memory.writeBytes m a (x ++ y) = Memory.writeBytes (Memory.writeBytes m a x) (a + x.length) y := by
  induction x generalizing m a with
  | nil => simp [Memory.writeBytes]
  | cons b x ih =>
    simp only [List.cons_append, Memory.writeBytes, List.length_cons]
    rw [ih, show a + 1 + x.length = a + (x.length + 1) by omega]

/-- An octet after a string is stored: the string's octet inside it, the old octet outside it. -/
theorem Memory.read_writeBytes {m : Memory} (a : Nat) (bs : Bytes) (h : m.wf = true) (c : Nat) :
    Memory.read (Memory.writeBytes m a bs) c =
      if a ≤ c ∧ c < a + bs.length then bs.getD (c - a) 0 else Memory.read m c := by
  induction bs generalizing m a with
  | nil => simp only [Memory.writeBytes, List.length_nil]; rw [if_neg (by omega)]
  | cons b bs ih =>
    simp only [Memory.writeBytes, List.length_cons]
    rw [ih (a + 1) (Memory.write_wf a b h), Memory.read_write (k := 0) h]
    by_cases hc : a = c
    · subst hc
      rw [if_neg (by omega), if_pos rfl, if_pos (by omega)]; simp
    · by_cases h1 : a + 1 ≤ c ∧ c < a + 1 + bs.length
      · rw [if_pos h1, if_pos (by omega)]
        obtain ⟨d, hd⟩ : ∃ d, c - a = d + 1 := ⟨c - a - 1, by omega⟩
        rw [hd, show c - (a + 1) = d by omega]; simp
      · rw [if_neg h1, if_neg hc, if_neg (by omega)]

/-- What is stored from address 0 is read back. -/
theorem Memory.readBytes_writeBytes {m : Memory} (bs : Bytes) (h : m.wf = true) :
    Memory.readBytes (Memory.writeBytes m 0 bs) 0 bs.length = bs := by
  apply List.ext_getElem
  · simp [Memory.readBytes]
  · intro i h1 h2
    simp only [Memory.readBytes, List.getElem_map, List.getElem_range, Nat.zero_add]
    rw [Memory.read_writeBytes 0 bs h, if_pos (by omega)]
    simp [h2]

/-- MemWrite succeeds exactly inside the buffer, and keeps form and bound (20_memory.md R61). -/
theorem memWrite_eq_some {m m' : Memory} {a : Nat} {bs : Bytes} (h : memWrite m a bs = some m') :
    a + bs.length ≤ Config.rbufCap ∧ m' = Memory.writeBytes m a bs := by
  unfold memWrite at h
  split at h
  · exact ⟨‹_›, (Option.some.inj h).symm⟩
  · cases h

theorem memWrite_keeps {m m' : Memory} {a : Nat} {bs : Bytes} (h : memWrite m a bs = some m') (hw : m.wf = true)
    (hb : Memory.below m Config.rbufCap) : m'.wf = true ∧ Memory.below m' Config.rbufCap := by
  obtain ⟨hle, rfl⟩ := memWrite_eq_some h
  exact ⟨Memory.writeBytes_wf a bs hw, Memory.writeBytes_below a bs hb hle⟩

end Sys2Proof.Machine
end

