-- ==== Sys2Proof/Laws/Decoder.lean ====
section
/-! SUPPORT. What the decoder's steps can do: they leave everything but the cursor, `ack_reg`, the events, the
diagnostic trace and the running callback alone; from a cursor that meets its invariants they never fault and keep the
invariants (10_state.md R29). -/

namespace Sys2Proof.Machine

/-- What every decoder step leaves alone. -/
structure Untouched (s t : State) : Prop where
  cfg        : t.cfg = s.cfg
  cb         : t.cb = s.cb
  opened     : t.opened = s.opened
  txlock     : t.txlock = s.txlock
  life       : t.life = s.life
  rxBusy     : t.rxBusy = s.rxBusy
  inflight   : t.inflight = s.inflight
  portCalls  : t.portCalls = s.portCalls
  wire       : t.wire = s.wire
  results    : t.results = s.results
  caller     : t.caller = s.caller
  replies    : t.replies = s.replies
  agenda     : t.agenda = s.agenda
  handshake  : t.handshake = s.handshake
  openResult : t.openResult = s.openResult
  draws      : t.draws = s.draws

theorem Untouched.refl (s : State) : Untouched s s := by constructor <;> rfl

theorem Untouched.trans {s t u : State} (h : Untouched s t) (k : Untouched t u) : Untouched s u := by
  constructor
  · exact k.cfg.trans h.cfg
  · exact k.cb.trans h.cb
  · exact k.opened.trans h.opened
  · exact k.txlock.trans h.txlock
  · exact k.life.trans h.life
  · exact k.rxBusy.trans h.rxBusy
  · exact k.inflight.trans h.inflight
  · exact k.portCalls.trans h.portCalls
  · exact k.wire.trans h.wire
  · exact k.results.trans h.results
  · exact k.caller.trans h.caller
  · exact k.replies.trans h.replies
  · exact k.agenda.trans h.agenda
  · exact k.handshake.trans h.handshake
  · exact k.openResult.trans h.openResult
  · exact k.draws.trans h.draws

theorem untouched_setCur (s : State) (c : Cursor) : Untouched s (s.setCur c) := by constructor <;> rfl
theorem untouched_note (s : State) (d : Diag) : Untouched s (s.note d) := by constructor <;> rfl
theorem untouched_emit (s : State) (e : Event) : Untouched s (s.emit e) := by constructor <;> rfl
theorem untouched_setAck (s : State) (a : Option Nat) : Untouched s (s.setAck a) := by constructor <;> rfl
theorem untouched_setCallback (s : State) (c : Option Nat) : Untouched s (s.setCallback c) := by constructor <;> rfl
theorem untouched_dispatch (ch : Nat) (bs : Bytes) (s : State) : Untouched s (dispatch ch bs s) := by
  constructor <;> simp
theorem untouched_resync (d : Diag) (s : State) : Untouched s (resync d s) := by constructor <;> rfl
theorem untouched_openFrame (s : State) : Untouched s (openFrame s) := by constructor <;> rfl
theorem untouched_closeFrame (s : State) : Untouched s (closeFrame s) := by constructor <;> rfl
theorem untouched_countPayload (k : Nat) (s : State) : Untouched s (countPayload k s) := by constructor <;> rfl

theorem untouched_headerDone (s : State) : Untouched s (headerDone s) := by
  unfold headerDone
  dsimp only
  split
  · exact (untouched_setCur s _).trans (untouched_note _ _)
  · exact untouched_setCur s _

/-! ### Cursor invariants, by phase -/

theorem CursorInv.ranges {cfg : Cfg} {c : Cursor} (h : CursorInv cfg c) : CursorRanges c := h.2.2.2.2.2

/-- In INIT and RECOVER. -/
theorem CursorInv.ofIdle {cfg : Cfg} {c : Cursor} (hst : c.st = .init ∨ c.st = .recover) (h0 : c.cnt = 0)
    (hl : c.rlen = 0) (hr : CursorRanges c) : CursorInv cfg c := by
  refine ⟨fun _ => ⟨h0, hl⟩, fun e => ?_, fun e => ?_, fun e => ?_, fun _ => ⟨h0, hl⟩, hr⟩ <;>
    rcases hst with h | h <;> exact absurd (h.symm.trans e) (by decide)

/-- In HEADER. -/
theorem CursorInv.ofHeader {cfg : Cfg} {c : Cursor} (hst : c.st = .header) (h1 : 1 ≤ c.cnt) (h3 : c.cnt ≤ 3)
    (hl : c.rlen = 0) (hr : CursorRanges c) : CursorInv cfg c := by
  refine ⟨fun e => ?_, fun _ => ⟨h1, h3, hl⟩, fun e => ?_, fun e => ?_, fun e => ?_, hr⟩ <;>
    exact absurd (hst.symm.trans e) (by decide)

/-- In PAYLOAD. -/
theorem CursorInv.ofPayload {cfg : Cfg} {c : Cursor} (hst : c.st = .payload) (h : PayloadInv cfg c)
    (hr : CursorRanges c) : CursorInv cfg c := by
  refine ⟨fun e => ?_, fun e => ?_, fun _ => h, fun e => ?_, fun e => ?_, hr⟩ <;>
    exact absurd (hst.symm.trans e) (by decide)

/-- In FOOTER. -/
theorem CursorInv.ofFooter {cfg : Cfg} {c : Cursor} (hst : c.st = .footer) (h : FooterInv cfg c)
    (hr : CursorRanges c) : CursorInv cfg c := by
  refine ⟨fun e => ?_, fun e => ?_, fun e => ?_, fun _ => h, fun e => ?_, hr⟩ <;>
    exact absurd (hst.symm.trans e) (by decide)

/-- The cursor of a resynchronisation. -/
theorem cursorInv_recover {cfg : Cfg} {c : Cursor} (h : CursorRanges c) :
    CursorInv cfg { c with st := .recover, cnt := 0, rlen := 0 } :=
  .ofIdle (.inr rfl) rfl rfl ⟨Nat.zero_le _, h.2⟩

/-- The cursor after an accepted frame. -/
theorem cursorInv_close {cfg : Cfg} {c : Cursor} (h : CursorRanges c) :
    CursorInv cfg { c with st := .init, cnt := 0, rlen := 0 } :=
  .ofIdle (.inl rfl) rfl rfl ⟨Nat.zero_le _, h.2⟩

/-- The cursor after an opening marker. -/
theorem cursorInv_open {cfg : Cfg} {c : Cursor} (h : CursorRanges c) (h0 : c.rlen = 0) :
    CursorInv cfg { c with st := .header, cnt := 1 } :=
  .ofHeader rfl (Nat.le_refl 1) (Nat.le_add_left 1 2) h0 h

/-- The cursor that a complete header leaves. -/
theorem cursorInv_headerDone {s : State} (h4 : s.cur.cnt = 4) (h : CursorRanges s.cur) :
    CursorInv (headerDone s).cfg (headerDone s).cur := by
  have hl := lenOf_le s.cur.hdr.h3
  have hc := chanOf_le s.cur.hdr.h1
  have key : CursorInv s.cfg { s.cur with
      ch := chanOf s.cur.hdr.h1, kind := s.cur.hdr.h2, rem := lenOf s.cur.hdr.h3, rlen := 0
      st := if lenOf s.cur.hdr.h3 = 0 then .footer else .payload } := by
    have hr : CursorRanges { s.cur with
        ch := chanOf s.cur.hdr.h1, kind := s.cur.hdr.h2, rem := lenOf s.cur.hdr.h3, rlen := 0
        st := if lenOf s.cur.hdr.h3 = 0 then .footer else .payload } := ⟨Nat.zero_le _, hl, hc, h.2.2.2⟩
    by_cases h0 : lenOf s.cur.hdr.h3 = 0
    · refine .ofFooter (if_pos h0) ⟨h4.ge, h4.le.trans (by decide), h0, rfl, rfl, ?_⟩ hr
      dsimp only
      split <;> omega
    · refine .ofPayload (if_neg h0) ⟨h4, Nat.pos_of_ne_zero h0, rfl, rfl, ?_⟩ hr
      dsimp only
      split <;> rfl
  unfold headerDone
  dsimp only
  split <;> exact key

/-! ### Steps -/

/-- A step answers a state, leaves alone what the decoder does not write, keeps the cursor invariants and puts only a
known channel into `ack_reg`. -/
def StepKeeps (s : State) (r : Except Fault State) : Prop :=
  ∃ t, r = .ok t ∧ Untouched s t ∧ CursorInv t.cfg t.cur ∧
    (s.ackReg.all (known s.cfg) = true → t.ackReg.all (known s.cfg) = true)

theorem StepKeeps.of_untouched {s s' : State} {r : Except Fault State} (hu : Untouched s s')
    (ha : s'.ackReg = s.ackReg) (h : StepKeeps s' r) : StepKeeps s r := by
  obtain ⟨t, rfl, hut, hc, hk⟩ := h
  refine ⟨t, rfl, hu.trans hut, hc, fun h => ?_⟩
  rw [ha, hu.cfg] at hk
  exact hk h

theorem stepKeeps_resync {s : State} (h : CursorRanges s.cur) (d : Diag) : StepKeeps s (.ok (resync d s)) :=
  ⟨_, rfl, untouched_resync d s, cursorInv_recover h, id⟩

theorem stepKeeps_openFrame {s : State} (h : CursorRanges s.cur) (h0 : s.cur.rlen = 0) :
    StepKeeps s (.ok (openFrame s)) :=
  ⟨_, rfl, untouched_openFrame s, cursorInv_open h h0, id⟩

theorem stepKeeps_closeFrame {s : State} (h : CursorRanges s.cur) : StepKeeps s (.ok (closeFrame s)) :=
  ⟨_, rfl, untouched_closeFrame s, cursorInv_close h, id⟩

/-- A frame is acknowledged only on a known channel. -/
theorem known_of_route_ack {s : State} (h : route s = .ack) : known s.cfg (chanOf s.cur.hdr.h1) = true := by
  by_contra hk
  simp [route, routeOf, hk] at h

/-- Acceptance of a frame (42_decoder.md R159). -/
theorem stepKeeps_acceptFrame {s : State} (h : CursorRanges s.cur) (hch : s.cur.ch = chanOf s.cur.hdr.h1) :
    StepKeeps s (acceptFrame s) := by
  unfold acceptFrame
  split
  · next hr =>
    refine ⟨_, rfl, ((untouched_setAck s _).trans (untouched_emit _ _)).trans (untouched_closeFrame _),
      cursorInv_close h, fun _ => ?_⟩
    simpa [closeFrame, hch] using known_of_route_ack hr
  · exact stepKeeps_closeFrame h
  · split
    · have : memRead s.cur.rbuf s.cur.rlen = some (s.cur.rbuf.readBytes 0 s.cur.rlen) := if_pos h.1
      rw [this]
      refine .of_untouched (untouched_dispatch _ _ s) (by simp) (stepKeeps_closeFrame ?_)
      rw [dispatch_cur]
      exact h
    · exact stepKeeps_closeFrame h

/-- The end of a frame (42_decoder.md R157 to R159). -/
theorem stepKeeps_frameEnd {s : State} (h : CursorRanges s.cur) (hch : s.cur.ch = chanOf s.cur.hdr.h1) :
    StepKeeps s (frameEnd s) := by
  unfold frameEnd
  split
  · split
    · exact stepKeeps_resync h _
    · exact stepKeeps_acceptFrame h hch
  · exact stepKeeps_resync h _

theorem stepKeeps_headerDone {s : State} (h4 : s.cur.cnt = 4) (h : CursorRanges s.cur) :
    StepKeeps s (.ok (headerDone s)) := by
  refine ⟨_, rfl, untouched_headerDone s, cursorInv_headerDone h4 h, fun ha => ?_⟩
  unfold headerDone
  dsimp only
  split <;> exact ha

/-- In HEADER and FOOTER an octet has its place in the header buffer; the address, control and length octets stay when
the place is one of the trailer's. -/
theorem hdr_put_ok (h : Hdr) {i : Nat} (b : Byte) (hi : i ≤ 5) :
    ∃ h', h.put i b = some h' ∧ (4 ≤ i → h'.h1 = h.h1 ∧ h'.h2 = h.h2 ∧ h'.h3 = h.h3) := by
  interval_cases i <;> exact ⟨_, rfl, by simp⟩

/-- A byte step outside PAYLOAD (42_decoder.md R151, R152, R156, R160). -/
theorem byteStep_keeps {s : State} (h : CursorInv s.cfg s.cur) (b : Byte) (hp : s.cur.st ≠ .payload) :
    StepKeeps s (byteStep b s) := by
  obtain ⟨hi, hh, -, hf, hr, hrg⟩ := id h
  unfold byteStep
  split
  · next hst =>
    split
    · exact stepKeeps_openFrame hrg (hi hst).2
    · exact stepKeeps_resync hrg _
  · next hst =>
    obtain ⟨h1, h3, h0⟩ := hh hst
    split
    · exact ⟨s, rfl, Untouched.refl s, h, id⟩
    · obtain ⟨hdr', hput, -⟩ := hdr_put_ok s.cur.hdr b (show s.cur.cnt ≤ 5 by omega)
      simp only [storeHdr, hput]
      refine .of_untouched (untouched_setCur s { s.cur with hdr := hdr', cnt := s.cur.cnt + 1 }) rfl ?_
      split
      · next h4 => exact stepKeeps_headerDone h4 hrg
      · next h4 =>
        simp only [State.setCur_cur] at h4
        exact ⟨_, rfl, Untouched.refl _,
          .ofHeader hst (Nat.le_add_left 1 _) (show s.cur.cnt + 1 ≤ 3 by omega) h0 hrg, id⟩
  · next hst => exact absurd hst hp
  · next hst =>
    obtain ⟨h4, h5, hrem, hch, hkind, hlen⟩ := hf hst
    obtain ⟨hdr', hput, hsame⟩ := hdr_put_ok s.cur.hdr b h5
    obtain ⟨e1, e2, e3⟩ := hsame h4
    simp only [storeHdr, hput]
    refine .of_untouched (untouched_setCur s { s.cur with hdr := hdr', cnt := s.cur.cnt + 1 }) rfl ?_
    split
    · exact stepKeeps_frameEnd hrg (hch.trans (by rw [State.setCur_cur, e1]))
    · next h6 =>
      simp only [State.setCur_cur] at h6
      refine ⟨_, rfl, Untouched.refl _, .ofFooter hst ⟨?_, ?_, hrem, ?_, ?_, ?_⟩ hrg, id⟩
      · exact Nat.le_succ_of_le h4
      · show s.cur.cnt + 1 ≤ 5
        omega
      · rw [hch, State.setCur_cur, e1]
      · rw [hkind, State.setCur_cur, e2]
      · simpa only [Gathers, State.setCur_cur, State.setCur_cfg, e1, e2, e3] using hlen
  · next hst =>
    split
    · exact stepKeeps_openFrame hrg (hr hst).2
    · exact ⟨s, rfl, Untouched.refl s, h, id⟩

/-- The count of a payload step, from a cursor whose buffer has taken the step's octets. -/
theorem stepKeeps_countPayload {s : State} {k : Nat} (hst : s.cur.st = .payload) (h4 : s.cur.cnt = 4)
    (hch : s.cur.ch = chanOf s.cur.hdr.h1) (hkind : s.cur.kind = s.cur.hdr.h2) (hr : CursorRanges s.cur)
    (hshare : if Gathers s.cfg s.cur.hdr then s.cur.rem - k + s.cur.rlen = lenOf s.cur.hdr.h3 else s.cur.rlen = 0) :
    StepKeeps s (.ok (countPayload k s)) := by
  refine ⟨_, rfl, untouched_countPayload k s, ?_, id⟩
  have hr' : CursorRanges (countPayload k s).cur :=
    ⟨hr.1, (Nat.sub_le _ _).trans hr.2.1, hr.2.2⟩
  by_cases h0 : s.cur.rem - k = 0
  · refine .ofFooter (if_pos h0) ⟨h4.ge, h4.le.trans (by decide), h0, hch, hkind, ?_⟩ hr'
    show if Gathers s.cfg s.cur.hdr then s.cur.rlen = lenOf s.cur.hdr.h3 else s.cur.rlen = 0
    split at hshare
    · next hg => rw [if_pos hg]; omega
    · next hg => rw [if_neg hg]; exact hshare
  · exact .ofPayload ((if_neg h0).trans hst) ⟨h4, Nat.pos_of_ne_zero h0, hch, hkind, hshare⟩ hr'

/-- A payload step of at most the octets that are left (42_decoder.md R155). -/
theorem payloadStep_keeps {s : State} (h : CursorInv s.cfg s.cur) (hst : s.cur.st = .payload) (bs : Bytes)
    (hk : bs.length ≤ s.cur.rem) : StepKeeps s (payloadStep bs s) := by
  obtain ⟨h4, h1, hch, hkind, hshare⟩ := h.2.2.1 hst
  have hrg := h.ranges
  have hl3 := lenOf_le s.cur.hdr.h3
  unfold payloadStep takePayload
  by_cases hroute : route s = .data
  · rw [if_pos hroute]
    by_cases hd : s.cfg.defrag = true
    · rw [if_pos hd]
      have hg : Gathers s.cfg s.cur.hdr := ⟨hd, hroute⟩
      rw [if_pos hg] at hshare
      have hle : s.cur.rlen + bs.length ≤ Config.rbufCap := by
        have : Config.rbufCap = 127 := rfl
        omega
      have hm : memWrite s.cur.rbuf s.cur.rlen bs = some (s.cur.rbuf.writeBytes s.cur.rlen bs) := if_pos hle
      obtain ⟨hw', hb'⟩ := memWrite_keeps hm hrg.2.2.2.1 hrg.2.2.2.2
      simp only [hm]
      refine .of_untouched (untouched_setCur s { s.cur with
          rbuf := s.cur.rbuf.writeBytes s.cur.rlen bs, rlen := s.cur.rlen + bs.length }) rfl
        (stepKeeps_countPayload hst h4 hch hkind ⟨hle, hrg.2.1, hrg.2.2.1, hw', hb'⟩ ?_)
      show if Gathers s.cfg s.cur.hdr then s.cur.rem - bs.length + (s.cur.rlen + bs.length) = lenOf s.cur.hdr.h3
        else s.cur.rlen + bs.length = 0
      rw [if_pos hg]
      omega
    · rw [if_neg hd]
      have hg : ¬ Gathers s.cfg s.cur.hdr := fun hg => hd hg.1
      rw [if_neg hg] at hshare
      refine .of_untouched (untouched_dispatch s.cur.ch bs s) (by simp) ?_
      apply stepKeeps_countPayload <;> simp only [dispatch_cur, dispatch_cfg] <;> try assumption
      rwa [if_neg hg]
  · rw [if_neg hroute]
    have hg : ¬ Gathers s.cfg s.cur.hdr := fun hg => hroute hg.2
    rw [if_neg hg] at hshare
    exact stepKeeps_countPayload hst h4 hch hkind hrg (by rwa [if_neg hg])

end Sys2Proof.Machine
end

