-- ==== Sys2Proof/Laws/PerInstr.lean ====
section
/-! SUPPORT. The family WireShape, made per instruction: a well-formed frame's octets are 6 more than its payload,
6 to 133 of them, and begin and end with the marker, with no marker in the second place; an interface operation has no
octets (30_encoding.md R80, R91). -/

namespace Sys2Proof.Laws.WireShape

/-- The wire shape of an instruction. -/
def Statement (i : Instr) : Prop :=
  match frameParts i with
  | none => encode i = none
  | some (c, f) => wellFormed i = true →
      encode i = some (frameBytes c f) ∧ (frameBytes c f).length = 6 + f.payload.length ∧
      (frameBytes c f).length ≤ 133 ∧ (frameBytes c f).head? = some Config.marker ∧
      (frameBytes c f).getLast? = some Config.marker ∧ (frameBytes c f)[1]? ≠ some Config.marker

/-- The shape of a frame that fits the wire format. -/
theorem of_frame (c : Byte) (f : Frame) (h : f.ok = true) :
    (frameBytes c f).length = 6 + f.payload.length ∧
      (frameBytes c f).length ≤ 133 ∧ (frameBytes c f).head? = some Config.marker ∧
      (frameBytes c f).getLast? = some Config.marker ∧ (frameBytes c f)[1]? ≠ some Config.marker := by
  replace h := Frame.ok_iff.mp h
  have hlen : (frameBytes c f).length = 6 + f.payload.length := by simp [frameBytes]; omega
  refine ⟨hlen, by omega, rfl, ?_, by simpa [frameBytes] using h.2⟩
  simp [frameBytes, List.getLast?_cons, List.getLast?_append]

theorem rr (pf : Bool) (f : Frame) : Statement (.rr pf f) :=
  fun h => ⟨rfl, of_frame _ f h⟩

theorem ui (pf : Bool) (f : Frame) : Statement (.ui pf f) :=
  fun h => ⟨rfl, of_frame _ f h⟩

theorem rnr (pf : Bool) (f : Frame) : Statement (.rnr pf f) :=
  fun h => ⟨rfl, of_frame _ f h⟩

theorem rej (pf : Bool) (f : Frame) : Statement (.rej pf f) :=
  fun h => ⟨rfl, of_frame _ f h⟩

theorem dm (pf : Bool) (f : Frame) : Statement (.dm pf f) :=
  fun h => ⟨rfl, of_frame _ f h⟩

theorem sabm (pf : Bool) (f : Frame) : Statement (.sabm pf f) :=
  fun h => ⟨rfl, of_frame _ f h⟩

theorem disc (pf : Bool) (f : Frame) : Statement (.disc pf f) :=
  fun h => ⟨rfl, of_frame _ f h⟩

theorem ua (pf : Bool) (f : Frame) : Statement (.ua pf f) :=
  fun h => ⟨rfl, of_frame _ f (Bool.and_elim_left h)⟩

theorem uih (pf : Bool) (f : Frame) : Statement (.uih pf f) :=
  fun h => ⟨rfl, of_frame _ f h⟩

theorem ack (f : Frame) : Statement (.ack f) :=
  fun h => ⟨rfl, of_frame _ f (Bool.and_elim_left h)⟩

theorem anyOtherControl (c : Byte) (f : Frame) : Statement (.anyOtherControl c f) :=
  fun h => ⟨rfl, of_frame _ f (Bool.and_elim_left h)⟩

theorem crc8 (d : Bytes) : Statement (.crc8 d) :=
  rfl

theorem fcs (a : Byte) (c : Byte) (l : Byte) : Statement (.fcs a c l) :=
  rfl

theorem encodeHeader (ch : Nat) (kind : Byte) (pf : Bool) (n : Nat) : Statement (.encodeHeader ch kind pf n) :=
  rfl

theorem encodeTrailer (h : Header) : Statement (.encodeTrailer h) :=
  rfl

theorem decodeHeader (h : Header) : Statement (.decodeHeader h) :=
  rfl

theorem fcsCheck (a : Byte) (c : Byte) (l : Byte) (f : Byte) : Statement (.fcsCheck a c l f) :=
  rfl

theorem write (ch : Nat) (p : Bytes) : Statement (.write ch p) :=
  rfl

theorem sendCtrl (ch : Nat) (kind : Byte) (pf : Bool) : Statement (.sendCtrl ch kind pf) :=
  rfl

theorem rxChunk (c : Bytes) : Statement (.rxChunk c) :=
  rfl

theorem registerCallback (ch : Nat) (h : Handle) : Statement (.registerCallback ch h) :=
  rfl

theorem dispatch (ch : Nat) (bs : Bytes) : Statement (.dispatch ch bs) :=
  rfl

theorem setOpen (ch : Nat) : Statement (.setOpen ch) :=
  rfl

theorem getOpen (ch : Nat) : Statement (.getOpen ch) :=
  rfl

theorem ackRead : Statement (.ackRead) :=
  rfl

theorem ackClear : Statement (.ackClear) :=
  rfl

theorem start : Statement (.start) :=
  rfl

theorem stop : Statement (.stop) :=
  rfl

theorem teardown : Statement (.teardown) :=
  rfl

theorem reset (r : CfgRequest) : Statement (.reset r) :=
  rfl

end Sys2Proof.Laws.WireShape
end

