-- ==== Sys2Proof/Laws/Tasks.lean ====
section
/-! SUPPORT. What one move of a begun call can do, the induction over the moves of a call, and where the innermost call
of a caller stands. -/

namespace Sys2Proof.Machine

/-! ### Moves -/

/-- A move of an RX_CHUNK call: the callback returns, the call returns, or one decoder step is made on the octets that
the step takes from the chunk. -/
theorem rxMove_cases (c : Caller) (rest : Bytes) (s : State) :
    (s.callback ≠ none ∧ rxMove c rest s = .goesOn (.rx c rest) (s.setCallback none)) ∨
    (s.callback = none ∧ rest = [] ∧
      rxMove c rest s = .returned ((s.setBusy false).retTo c (.bool (atBoundary s.cur.st)))) ∨
    (s.callback = none ∧ rest ≠ [] ∧ s.cur.st = .payload ∧
      rxMove c rest s = onward (.rx c (rest.drop (min s.cur.rem rest.length)))
        (payloadStep (rest.take (min s.cur.rem rest.length)) s)) ∨
    (s.callback = none ∧ s.cur.st ≠ .payload ∧ ∃ b bs, rest = b :: bs ∧
      rxMove c rest s = onward (.rx c bs) (byteStep b s)) := by
  unfold rxMove
  cases hcb : s.callback with
  | some ch => exact .inl ⟨by simp, rfl⟩
  | none =>
    cases rest with
    | nil => exact .inr (.inl ⟨rfl, rfl, rfl⟩)
    | cons b bs =>
      by_cases hp : s.cur.st = .payload
      · exact .inr (.inr (.inl ⟨rfl, by simp, hp, by simp [hp]⟩))
      · exact .inr (.inr (.inr ⟨rfl, hp, b, bs, rfl, by simp [hp]⟩))

/-- A move of a writer call: it waits for the lock or acquires it; it makes the next TxWrite or returns its count; it
waits for the transport's answer, takes a good one, or ends on a bad one. -/
theorem txMove_cases (job : TxJob) (s : State) :
    (job.phase = .waiting ∧ s.txlock ≠ .free ∧ txMove job s = .blocked) ∨
    (job.phase = .waiting ∧ s.txlock = .free ∧
      txMove job s = .goesOn (.tx { job with phase := .ready }) (s.setLock (.held job.caller))) ∨
    (job.phase ≠ .waiting ∧ job.todo = [] ∧ txMove job s = .returned (txReturn job (.count job.total) s)) ∨
    (∃ w ws, job.phase = .ready ∧ job.todo = w :: ws ∧
      txMove job s = .goesOn (.tx { job with phase := .inWrite }) (s.portCall (.write w))) ∨
    (∃ w ws, job.phase = .inWrite ∧ job.todo = w :: ws ∧ s.replies = [] ∧ txMove job s = .blocked) ∨
    (∃ w ws r rs, job.phase = .inWrite ∧ job.todo = w :: ws ∧ s.replies = r :: rs ∧ r.ret = some w.length ∧
      txMove job s = .goesOn (.tx { job with phase := .ready, todo := ws }) ((s.setReplies rs).onWire w)) ∨
    (∃ w ws r rs, job.phase = .inWrite ∧ job.todo = w :: ws ∧ s.replies = r :: rs ∧ r.ret ≠ some w.length ∧
      txMove job s =
        .returned (txReturn job .ioError (((s.setReplies rs).onWire (w.take r.put)).note .txIoError))) := by
  obtain ⟨c, ph, todo, total⟩ := job
  cases ph with
  | waiting => cases hl : s.txlock <;> simp [txMove, hl]
  | ready => cases todo <;> simp [txMove]
  | inWrite =>
    cases todo with
    | nil => simp [txMove]
    | cons w ws =>
      cases hr : s.replies with
      | nil => simp [txMove, hr]
      | cons r rs => by_cases hg : r.ret = some w.length <;> simp [txMove, hr, hg]

/-- A returning move leaves the list of calls in flight alone, and a call stays its caller's from move to move. -/
theorem moveTask_inflight (t : Task) (s : State) :
    (∀ s', moveTask t s = .returned s' → s'.inflight = s.inflight) ∧
    (∀ t' s', moveTask t s = .goesOn t' s' → t'.callerOf = t.callerOf) := by
  cases t with
  | rx c rest =>
    simp only [moveTask]
    rcases rxMove_cases c rest s with ⟨_, h⟩ | ⟨_, _, h⟩ | ⟨_, _, _, h⟩ | ⟨_, _, b, bs, _, h⟩ <;> rw [h]
    · exact ⟨fun _ e => (Moved.noConfusion e), fun _ _ e => by injection e with e1 _; exact e1 ▸ rfl⟩
    · exact ⟨fun _ e => by injection e with e1; exact e1 ▸ rfl, fun _ _ e => (Moved.noConfusion e)⟩
    · generalize payloadStep _ s = r
      cases r <;> simp only [onward]
      · exact ⟨fun _ e => (Moved.noConfusion e), fun _ _ e => (Moved.noConfusion e)⟩
      · exact ⟨fun _ e => (Moved.noConfusion e), fun _ _ e => by injection e with e1 _; exact e1 ▸ rfl⟩
    · generalize byteStep b s = r
      cases r <;> simp only [onward]
      · exact ⟨fun _ e => (Moved.noConfusion e), fun _ _ e => (Moved.noConfusion e)⟩
      · exact ⟨fun _ e => (Moved.noConfusion e), fun _ _ e => by injection e with e1 _; exact e1 ▸ rfl⟩
  | tx job =>
    simp only [moveTask]
    rcases txMove_cases job s with ⟨_, _, h⟩ | ⟨_, _, h⟩ | ⟨_, _, h⟩ | ⟨_, _, _, _, h⟩ | ⟨_, _, _, _, _, h⟩ |
      ⟨_, _, _, _, _, _, _, _, h⟩ | ⟨_, _, _, _, _, _, _, _, h⟩ <;> rw [h]
    · exact ⟨fun _ e => (Moved.noConfusion e), fun _ _ e => (Moved.noConfusion e)⟩
    · exact ⟨fun _ e => (Moved.noConfusion e), fun _ _ e => by injection e with e1 _; exact e1 ▸ rfl⟩
    · exact ⟨fun _ e => by injection e with e1; exact e1 ▸ rfl, fun _ _ e => (Moved.noConfusion e)⟩
    · exact ⟨fun _ e => (Moved.noConfusion e), fun _ _ e => by injection e with e1 _; exact e1 ▸ rfl⟩
    · exact ⟨fun _ e => (Moved.noConfusion e), fun _ _ e => (Moved.noConfusion e)⟩
    · exact ⟨fun _ e => (Moved.noConfusion e), fun _ _ e => by injection e with e1 _; exact e1 ▸ rfl⟩
    · exact ⟨fun _ e => by injection e with e1; exact e1 ▸ rfl, fun _ _ e => (Moved.noConfusion e)⟩

/-! ### Running a call -/

/-- The induction over the moves of a call, packaged once: a property of task and state that every move keeps holds of
the task that waits in the end, and what the last move makes of it holds of the state after the return. -/
theorem runTask_induct (P : Task → State → Prop) (Q : State → Prop)
    (hgo : ∀ t s t' s', P t s → moveTask t s = .goesOn t' s' → P t' s')
    (hret : ∀ t s s', P t s → moveTask t s = .returned s' → Q s')
    (hfault : ∀ t s f, P t s → moveTask t s ≠ .fault f)
    (n : Nat) (t : Task) (s : State) (h : P t s) :
    ∃ u, runTask n t s = .next u ∧ (Q u ∨ ∃ t' s', P t' s' ∧ u = s'.park t') := by
  induction n generalizing t s with
  | zero => exact ⟨_, rfl, .inr ⟨t, s, h, rfl⟩⟩
  | succ n ih =>
    unfold runTask
    cases hm : moveTask t s with
    | blocked => exact ⟨_, rfl, .inr ⟨t, s, h, rfl⟩⟩
    | fault f => exact absurd hm (hfault t s f h)
    | returned s' => exact ⟨_, rfl, .inl (hret t s s' h hm)⟩
    | goesOn t' s' => exact ih t' s' (hgo t s t' s' h hm)

/-! ### The innermost call of a caller -/

/-- The innermost call of a caller is the first of its calls in the list. -/
theorem splitAt_eq_some {c : Caller} {ts pre post : List Task} {t : Task} (h : splitAt c ts = some (pre, t, post)) :
    ts = pre ++ t :: post ∧ t.callerOf = c ∧ ∀ u ∈ pre, u.callerOf ≠ c := by
  induction ts generalizing pre with
  | nil => simp [splitAt] at h
  | cons u ts ih =>
    unfold splitAt at h
    split at h
    · next hu =>
      simp only [Option.some.injEq, Prod.mk.injEq] at h
      obtain ⟨rfl, rfl, rfl⟩ := h
      exact ⟨rfl, hu, by simp⟩
    · next hu =>
      split at h
      · cases h
      · next pre' u' post' heq =>
        simp only [Option.some.injEq, Prod.mk.injEq] at h
        obtain ⟨rfl, rfl, rfl⟩ := h
        obtain ⟨e, hc, hp⟩ := ih heq
        exact ⟨by rw [e]; rfl, hc, by simpa [hu] using hp⟩

/-- A caller with no innermost call has no call in flight. -/
theorem splitAt_eq_none {c : Caller} {ts : List Task} (h : splitAt c ts = none) : ∀ u ∈ ts, u.callerOf ≠ c := by
  induction ts with
  | nil => simp
  | cons u ts ih =>
    unfold splitAt at h
    split at h
    · cases h
    · next hu =>
      split at h
      · next hn => simpa [hu] using ih hn
      · cases h

/-- The call parked last is its caller's innermost. -/
theorem splitAt_park (t : Task) (s : State) : splitAt t.callerOf (s.park t).inflight = some ([], t, s.inflight) := by
  simp [splitAt]

end Sys2Proof.Machine
end

