-- ==== Sys2Proof/Tests/Slice0.lean ====
section
/-! SUPPORT. The model's own tests. Expected values are those of spec/95_test_vectors.md or of the rule each docstring
names; the last part shows, for every obligation with hypotheses, a state and operands that meet them together. -/

namespace Sys2Proof.Tests

open Sys2Proof.Machine

set_option Elab.async false

/-! ## Helpers -/

/-- The state after a step that goes on. -/
def after (r : Result) : Option State :=
  match r with
  | .next s => some s
  | _ => none

/-- The refusal of a step that is refused. -/
def refusal (r : Result) : Option Refusal :=
  match r with
  | .refused q => some q
  | _ => none

/-- Reset with `DEFRAG`, `VERIFY_FCS` and `ACK_CTRL` as given and callbacks on channels 0, 1 and 2, the configuration of
95_test_vectors.md. -/
def engine (defrag verify : Bool) (ack : Byte := 0x73) : State :=
  (((State.construct ⟨2, defrag, verify, ack⟩).setCb 0 ⟨10⟩).setCb 1 ⟨11⟩).setCb 2 ⟨12⟩

/-- The usual engine. -/
def e0 : State := engine true false

/-- The same with answers of the transport. -/
def answers (rs : List (Option Nat)) (s : State) : State := s.setReplies (rs.map fun r => ⟨r, 0⟩)

/-- Run one instruction, then another. -/
def andThen (r : Result) (i : Instr) : Result :=
  match r with
  | .next s => exec i s
  | .fault f => .fault f
  | .refused q => .refused q

/-- The events, diagnostic trace, phase and result values after a step that goes on. -/
def seen (r : Result) : Option (List Event × List Diag × Phase × List Value) :=
  (after r).map fun t => (t.events, t.diags, t.cur.st, t.results.map Returned.value)

/-- The result values after a step that goes on. -/
def values (r : Result) : Option (List Value) := (after r).map fun t => t.results.map Returned.value

/-- The TxWrite strings, the wire, the lock and the result values after a step that goes on. -/
def sent (r : Result) : Option (List Bytes × Bytes × TxLock × List Value) :=
  (after r).map fun t => (txWrites t.portCalls, t.wire, t.txlock, t.results.map Returned.value)

/-- "Test\n". -/
def text : Bytes := [0x54, 0x65, 0x73, 0x74, 0x0A]

/-- The frame of V1. -/
def v1 : Frame := ⟨1, 3, 1, text, 0xDA⟩

/-- `F9 07 EF 03 41 D4 F9` without its control octet: channel 1, "A". -/
def frameA : Frame := ⟨1, 3, 1, [0x41], 0xD4⟩

/-- A frame of channel 1 without payload. -/
def empty1 (fcs : Byte) : Frame := ⟨1, 3, 1, [], fcs⟩

/-! ## Decoding: words written out bit by bit from 30_encoding.md R80 to R83, R87 -/

/-- RR, P/F 0, channel 1, no payload. -/
theorem test_decode_rr :
    decode [0b11111001, 0b00000111, 0b00000001, 0b00000001, 0b00000000, 0b11111001] =
      .ok (.rr false ⟨1, 3, 1, [], 0⟩, []) := by decide

/-- UI, P/F 1, channel 2. -/
theorem test_decode_ui :
    decode [0b11111001, 0b00001011, 0b00010011, 0b00000001, 0b00000000, 0b11111001] =
      .ok (.ui true ⟨2, 3, 1, [], 0⟩, []) := by decide

/-- RNR, P/F 0, channel 0. -/
theorem test_decode_rnr :
    decode [0b11111001, 0b00000011, 0b00000101, 0b00000001, 0b00000000, 0b11111001] =
      .ok (.rnr false ⟨0, 3, 1, [], 0⟩, []) := by decide

/-- REJ, P/F 1, channel 63. -/
theorem test_decode_rej :
    decode [0b11111001, 0b11111111, 0b00011001, 0b00000001, 0b00000000, 0b11111001] =
      .ok (.rej true ⟨63, 3, 1, [], 0⟩, []) := by decide

/-- DM, P/F 0, the fixed bits of address and length clear (R89). -/
theorem test_decode_dm :
    decode [0b11111001, 0b00000100, 0b00001111, 0b00000000, 0b00000000, 0b11111001] =
      .ok (.dm false ⟨1, 0, 0, [], 0⟩, []) := by decide

/-- SABM, P/F 1, channel 0, with the FCS of 95_test_vectors.md. -/
theorem test_decode_sabm :
    decode [0b11111001, 0b00000011, 0b00111111, 0b00000001, 0b00011100, 0b11111001] =
      .ok (.sabm true ⟨0, 3, 1, [], 0x1C⟩, []) := by decide

/-- DISC, P/F 1, channel 1, with the FCS of 95_test_vectors.md. -/
theorem test_decode_disc :
    decode [0b11111001, 0b00000111, 0b01010011, 0b00000001, 0b00111111, 0b11111001] =
      .ok (.disc true ⟨1, 3, 1, [], 0x3F⟩, []) := by decide

/-- UA, P/F 1, with a payload octet (X15). -/
theorem test_decode_ua :
    decode [0b11111001, 0b00000111, 0b01110011, 0b00000011, 0b01000001, 0b11110110, 0b11111001] =
      .ok (.ua true ⟨1, 3, 1, [0x41], 0xF6⟩, []) := by decide

/-- UIH, P/F 0, two marker octets as payload (R90). -/
theorem test_decode_uih :
    decode [0b11111001, 0b00000111, 0b11101111, 0b00000101, 0b11111001, 0b11111001, 0b00110000, 0b11111001] =
      .ok (.uih false ⟨1, 3, 1, [0xF9, 0xF9], 0x30⟩, []) := by decide

/-- The default acknowledgement on channel 1 (X13). -/
theorem test_decode_ack :
    decode [0b11111001, 0b00000111, 0b01110011, 0b00000001, 0b00010101, 0b11111001] =
      .ok (.ack ⟨1, 3, 1, [], 0x15⟩, []) := by decide

/-- A control octet that no kind has (R88). -/
theorem test_decode_any_other_control :
    decode [0b11111001, 0b00000111, 0b11101110, 0b00000001, 0b00000000, 0b11111001] =
      .ok (.anyOtherControl 0xEE ⟨1, 3, 1, [], 0⟩, []) := by decide

/-- Octets that are no frame are rejected by name. -/
theorem test_decode_rejects :
    decode [] = .error .empty ∧ decode [0x07] = .error (.noStart 0x07) ∧
    decode [0xF9, 0xF9, 0x07] = .error .doubledMarker ∧
    decode [0xF9, 0x07, 0xEF, 0x03, 0x41, 0xD4] = .error .truncated ∧
    decode [0xF9, 0x07, 0xEF, 0x03, 0x41, 0xD4, 0x00] = .error (.noEnd 0x00) := by
  decide

/-- Table words: the row's instruction is read, and runs as the first instruction after reset. -/
theorem test_table_words :
    decodeTableWord 8 0x2F = some (.sabm false ⟨0, 0, 0, [], 0⟩) ∧ decodeTableWord 8 0x73 = some (.ack ⟨0, 0, 0, [], 0⟩) ∧
    decodeTableWord 8 0x00 = some (.anyOtherControl 0x00 ⟨0, 0, 0, [], 0⟩) := by decide

/-- The ACK row's word, from reset: the acknowledgement of channel 0. -/
theorem test_fetch_word :
    (after (step (State.reset.withFetchWord 8 0x73))).map State.ackReg = some (some 0) := by decide +kernel

/-! ## Well-formedness: an ill-formed term for each check -/

/-- A payload of 128 octets; an address octet equal to the marker; a UA frame that is the row ACK; an ACK with a
payload; a named control octet under ANY_OTHER_CONTROL. -/
theorem test_ill_formed_frames :
    [Instr.rr false ⟨1, 3, 1, List.replicate 128 0, 0⟩, .uih false ⟨62, 1, 1, [], 0⟩, .ua true (empty1 0x15), .ack frameA,
      .anyOtherControl 0xFF frameA].all (fun i => !wellFormed i) = true := by decide +kernel

/-- A channel id of 64, a length of 128, a dispatch of no octet and of 128 octets, 65 channels. -/
theorem test_ill_formed_calls :
    [Instr.encodeHeader 64 0 false 0, .encodeHeader 0 0 false 128, .write 64 [], .sendCtrl 64 0 false,
      .registerCallback 64 ⟨0⟩, .setOpen 64, .getOpen 64, .dispatch 64 [0], .dispatch 0 [],
      .dispatch 0 (List.replicate 128 0), .reset ⟨64, true, true, 0⟩].all (fun i => !wellFormed i) = true := by
  decide +kernel

/-- The largest operands are well formed. -/
theorem test_well_formed_bounds :
    [Instr.uih true ⟨63, 3, 1, List.replicate 127 0, 0⟩, .encodeHeader 63 0 true 127, .write 63 [],
      .dispatch 63 (List.replicate 127 0), .reset ⟨63, true, true, 0⟩].all wellFormed = true := by decide +kernel

/-! ## Frames -/

/-- The named kinds other than UIH and the default acknowledgement are data frames (30_encoding.md R88). -/
theorem test_named_kinds_are_data :
    [Instr.rr false frameA, .ui true frameA, .rnr false frameA, .rej true frameA, .dm false frameA, .sabm true frameA,
      .disc false frameA, .anyOtherControl 0x00 frameA].all (fun i =>
        seen (exec i e0) == some ([.deliver 1 ⟨11⟩ [0x41]], [], .init, [.bool true])) = true := by decide +kernel

/-- V1. -/
theorem test_uih : seen (exec (.uih false v1) e0) =
    some ([.deliver 1 ⟨11⟩ text], [], .init, [.bool true]) := by decide +kernel

/-- X12. -/
theorem test_uih_empty : seen (exec (.uih false (empty1 0x37)) e0) = some ([], [], .init, [.bool true]) := by
  decide +kernel

/-- X16, and the first frame of X23. -/
theorem test_ua : seen (exec (.ua false (empty1 0x00)) e0) = some ([], [], .init, [.bool true]) ∧
    seen (exec (.ua false (empty1 0x00)) (engine true false 0x63)) = some ([.ack 1], [], .init, [.bool true]) := by
  decide +kernel

/-- X13. -/
theorem test_ack : seen (exec (.ack (empty1 0x15)) e0) = some ([.ack 1], [], .init, [.bool true]) ∧
    (after (exec (.ack (empty1 0x15)) e0)).map State.ackReg = some (some 1) := by decide +kernel

/-- X11, X22. -/
theorem test_ack_not_signalled :
    seen (exec (.ack ⟨3, 3, 1, [], 0x50⟩) e0) = some ([], [.unknownChannel 3], .init, [.bool true]) ∧
    seen (exec (.ack (empty1 0x16)) (engine true true)) = some ([], [.fcsMismatch 0x16], .recover, [.bool false]) := by
  decide +kernel

/-! ## Codec -/

/-- The check value, and the empty string. -/
theorem test_crc8 : values (exec (.crc8 [0x31, 0x32, 0x33, 0x34, 0x35, 0x36, 0x37, 0x38, 0x39]) e0) =
    some [.octet 0xD0] ∧ values (exec (.crc8 []) e0) = some [.octet 0xFF] := by decide +kernel

/-- SABM on channel 0, and a header that is no encoder output. -/
theorem test_fcs : values (exec (.fcs 0x03 0x3F 0x01) e0) = some [.octet 0x1C] ∧
    values (exec (.fcs 0xFF 0xFF 0xFF) e0) = some [.octet 0xDB] := by decide +kernel

/-- `ENCODE_HEADER(63, 0xEF, false, 127)` and `ENCODE_HEADER(2, 0x00, true, 64)`. -/
theorem test_encode_header :
    values (exec (.encodeHeader 63 0xEF false 127) e0) = some [.octets [0xF9, 0xFF, 0xEF, 0xFF]] ∧
    values (exec (.encodeHeader 2 0x00 true 64) e0) = some [.octets [0xF9, 0x0B, 0x10, 0x81]] := by decide +kernel

/-- `ENCODE_HEADER(64, 0xEF, false, 1)` and `ENCODE_HEADER(1, 0xEF, false, 128)`; after teardown that test comes first
(60_exceptions.md R227). -/
theorem test_encode_header_domain : refusal (exec (.encodeHeader 64 0xEF false 1) e0) = some .codecDomain ∧
    refusal (exec (.encodeHeader 1 0xEF false 128) e0) = some .codecDomain ∧
    refusal (andThen (exec .teardown e0) (.encodeHeader 64 0xEF false 1)) = some .afterTeardown := by decide +kernel

/-- After teardown the codec operations are refused (43_registry.md R208, 60_exceptions.md R225). -/
theorem test_codec_after_teardown :
    [Instr.crc8 [], .fcs 0 0 0, .encodeTrailer ⟨0, 0, 0, 0⟩, .decodeHeader ⟨0, 0, 0, 0⟩, .fcsCheck 0 0 0 0].all (fun i =>
      refusal (andThen (exec .teardown e0) i) == some .afterTeardown) = true := by decide +kernel

/-- `ENCODE_TRAILER(F9 0B 10 81)`. -/
theorem test_encode_trailer :
    values (exec (.encodeTrailer ⟨0xF9, 0x0B, 0x10, 0x81⟩) e0) = some [.octets [0xBB, 0xF9]] := by decide +kernel

/-- `DECODE_HEADER(F9 04 EF 0A)` and `DECODE_HEADER(F9 FF FF FF)`. -/
theorem test_decode_header :
    values (exec (.decodeHeader ⟨0xF9, 0x04, 0xEF, 0x0A⟩) e0) = some [.fields 1 0xEF false 5] ∧
    values (exec (.decodeHeader ⟨0xF9, 0xFF, 0xFF, 0xFF⟩) e0) = some [.fields 63 0xFF true 127] := by decide +kernel

/-- `FCS_CHECK(07, EF, 0B, DA)` and `FCS_CHECK(07, EF, 0B, DB)`. -/
theorem test_fcs_check : values (exec (.fcsCheck 0x07 0xEF 0x0B 0xDA) e0) = some [.bool true] ∧
    values (exec (.fcsCheck 0x07 0xEF 0x0B 0xDB) e0) = some [.bool false] := by decide +kernel

/-! ## Writer -/

/-- V1. -/
theorem test_write : sent (exec (.write 1 text) (answers [some 4, some 5, some 2] e0)) =
    some ([[0xF9, 0x07, 0xEF, 0x0B], text, [0xDA, 0xF9]],
      [0xF9, 0x07, 0xEF, 0x0B, 0x54, 0x65, 0x73, 0x74, 0x0A, 0xDA, 0xF9], .free, [.count 5]) := by decide +kernel

/-- A short write of the second string: two calls are made, a prefix of it is on the wire, the lock is free. -/
theorem test_write_short : sent (exec (.write 1 text) (e0.setReplies [⟨some 4, 0⟩, ⟨some 3, 3⟩, ⟨some 2, 0⟩])) =
    some ([[0xF9, 0x07, 0xEF, 0x0B], text], [0xF9, 0x07, 0xEF, 0x0B, 0x54, 0x65, 0x73], .free, [.ioError]) := by
  decide +kernel

/-- `SEND_CTRL 0, 0x2F, true`. -/
theorem test_send_ctrl : sent (exec (.sendCtrl 0 0x2F true) (answers [some 4, some 2] e0)) =
    some ([[0xF9, 0x03, 0x3F, 0x01], [0x1C, 0xF9]], [0xF9, 0x03, 0x3F, 0x01, 0x1C, 0xF9], .free, [.count 0]) := by
  decide +kernel

/-- A transport that does not answer: the call is in flight and holds the lock (20_memory.md R73). -/
theorem test_send_ctrl_hangs : sent (exec (.sendCtrl 0 0x2F true) e0) =
    some ([[0xF9, 0x03, 0x3F, 0x01]], [], .held 0, []) := by decide +kernel

/-! ## Decoder -/

/-- Program P3. -/
theorem test_rx_chunk_p3 : seen (exec (.rxChunk [0x55, 0x66, 0xF9, 0x0F, 0xEF, 0x03, 0x41, 0x91, 0xF9, 0xF9, 0x07, 0xEF,
      0x03, 0x41, 0xD5, 0xF9, 0xF9, 0x0B, 0xEF, 0x03, 0x43, 0x53, 0xF9]) (engine true true)) =
    some ([.deliver 2 ⟨12⟩ [0x43]], [.noStart 0x55, .unknownChannel 3, .fcsMismatch 0xD5], .init, [.bool true]) := by
  decide +kernel

/-- X6: without DEFRAG the payload of a frame with a bad end has been delivered. -/
theorem test_rx_chunk_x6 : seen (exec (.rxChunk [0xF9, 0x07, 0xEF, 0x0B, 0x54, 0x65, 0x73, 0x74, 0x0A, 0xDA, 0x00])
      (engine false false)) =
    some ([.deliver 1 ⟨11⟩ text], [.noEnd 0x00], .recover, [.bool false]) := by decide +kernel

/-! ## Registry and lifecycle -/

/-- The later handle replaces the earlier one. -/
theorem test_register_callback : seen (andThen (exec (.registerCallback 1 ⟨7⟩) e0) (.uih false v1)) =
    some ([.deliver 1 ⟨7⟩ text], [], .init, [.bool true]) ∧
    refusal (exec (.registerCallback 3 ⟨7⟩) e0) = some .channelRange := by decide +kernel

/-- 43_registry.md R201, its example. -/
theorem test_dispatch : (after (exec (.dispatch 1 text) e0)).map State.events = some [.deliver 1 ⟨11⟩ text] ∧
    (after (exec (.dispatch 2 [0x78]) State.reset)).map State.diags = some [.noCallback 2] := by decide +kernel

/-- `SET_OPEN 1`, and `SET_OPEN 3` with N_DATA 2. -/
theorem test_set_open : (after (exec (.setOpen 1) e0)).map (fun t => (t.openAt 0, t.openAt 1)) = some (false, true) ∧
    refusal (exec (.setOpen 3) e0) = some .channelRange := by decide +kernel

/-- `GET_OPEN 1` after reset and after `SET_OPEN 1`. -/
theorem test_get_open : values (exec (.getOpen 1) e0) = some [.bool false] ∧
    values (andThen (exec (.setOpen 1) e0) (.getOpen 1)) = some [.bool true] := by decide +kernel

/-- Reading does not clear. -/
theorem test_ack_read : values (andThen (exec .ackRead (e0.setAck (some 1))) .ackRead) =
    some [.ack (some 1), .ack (some 1)] ∧ values (andThen (exec .teardown e0) .ackRead) = some [.stopped] := by
  decide +kernel

/-- `ACK_CLEAR`, then `ACK_READ`. -/
theorem test_ack_clear : values (andThen (exec .ackClear (e0.setAck (some 1))) .ackRead) = some [.ack none] := by
  decide +kernel

/-- 43_registry.md R206, R207. -/
theorem test_start_stop : (after (andThen (exec .start e0) .stop)).map State.portCalls = some [.start, .stop] ∧
    refusal (andThen (exec .teardown e0) .start) = some .afterTeardown := by decide +kernel

/-- `TEARDOWN` inside `RX_CHUNK`, and a second `TEARDOWN`. -/
theorem test_teardown : refusal (exec .teardown (e0.setBusy true)) = some .teardownBusy ∧
    refusal (andThen (exec .teardown e0) .teardown) = some .afterTeardown := by decide +kernel

/-- `RESET` with N_DATA 64 is refused; with N_DATA 0 the frame of V1 meets an unknown channel. -/
theorem test_reset : refusal (exec (.reset ⟨64, true, false, 0x73⟩) e0) = some .badConfig ∧
    (after (andThen (exec (.reset ⟨0, true, false, 0x73⟩) e0) (.uih false v1))).map State.diags =
      some [.unknownChannel 1] := by decide +kernel

/-! ## Witnesses: for every obligation with hypotheses, a state and operands that meet them together -/

/-- The same engine with the next moves `ms`. -/
def withMoves (s : State) (ms : List Move) : State := { s with agenda := ms }

/-- The same engine with its cursor where the decoder has got to. -/
def at' (s : State) (st : Phase) (cnt : Nat) (h : Hdr) (ch : Nat) (kind : Byte) (rem rlen : Nat) : State :=
  s.setCur { s.cur with st := st, cnt := cnt, hdr := h, ch := ch, kind := kind, rem := rem, rlen := rlen }

/-- In RECOVER. -/
def inRecover : State := at' e0 .recover 0 ⟨0, 0, 0, 0, 0, 0⟩ 0 0 0 0

/-- In HEADER. -/
def inHeader (cnt : Nat) : State := at' e0 .header cnt ⟨0, 0x07, 0xEF, 0, 0, 0⟩ 0 0 0 0

/-- In PAYLOAD of a frame on channel 1 with five octets to come. -/
def inPayload (s : State) : State := at' s .payload 4 ⟨0, 0x07, 0xEF, 0x0B, 0, 0⟩ 1 0xEF 5 0

/-- In FOOTER of a frame on channel 1 without payload. -/
def inFooter (cnt : Nat) : State := at' e0 .footer cnt ⟨0, 0x07, 0xEF, 0x01, 0, 0⟩ 1 0xEF 0 0

/-- Caller 5 is inside the first TxWrite of `SEND_CTRL 0, 0x2F, true`, holding the lock. -/
def writing : State :=
  { e0 with txlock := .held 5, inflight := [.tx ⟨5, .inWrite, ctrlStrings 0 0x2F true, 0⟩] }

/-- Caller 5, inside that TxWrite, has called the same again. -/
def deadlocked : State :=
  { writing with inflight := .tx ⟨5, .waiting, ctrlStrings 0 0x2F true, 0⟩ :: writing.inflight }

/-- After teardown. -/
def torn : State := { e0 with life := .tornDown }

/-- The strings of `SEND_CTRL 2, 0x2F, true` (95_test_vectors.md). -/
theorem ctrl_strings : ctrlStrings 2 0x2F true = [[0xF9, 0x0B, 0x3F, 0x01], [0x59, 0xF9]] := by decide +kernel

theorem writerCall_ctrl :
    WriterCall (.sendCtrl 2 0x2F true) 2 [[0xF9, 0x0B, 0x3F, 0x01], [0x59, 0xF9]] 0 :=
  ctrl_strings ▸ .sendCtrl 2 0x2F true

/-- A frame that arrives in the middle of a payload, two callers at the writer. -/
def busyAgenda : State := withMoves deadlocked [.advance 5, .arrive 0 (frameBytes 0xEF v1)]

theorem inv_e0 : Inv e0 := by decide +kernel
theorem inv_verifying : Inv (engine true true) := by decide +kernel
theorem inv_slicing : Inv (engine false false) := by decide +kernel
theorem inv_slicing_verifying : Inv (engine false true) := by decide +kernel
theorem inv_inRecover : Inv inRecover := by decide +kernel
theorem inv_inHeader : Inv (inHeader 1) := by decide +kernel
theorem inv_inPayload : Inv (inPayload e0) := by decide +kernel
theorem inv_writing : Inv writing := by decide +kernel
theorem inv_busyAgenda : Inv busyAgenda := by decide +kernel
theorem inv_torn : Inv torn := by decide +kernel

theorem meets_DecodeEncodeAgree :
    wellFormed (.uih false v1) = true ∧ encode (.uih false v1) = some (frameBytes 0xEF v1) ∧
    wellFormed (.anyOtherControl 0x00 ⟨63, 3, 1, List.replicate 127 0, 0⟩) = true := by decide +kernel

theorem meets_EncodeDecodeAgree :
    decode (frameBytes 0xEF frameA ++ [0xF9]) = .ok (.uih false frameA, [0xF9]) := by decide +kernel

theorem meets_StepRunsDecodedFrame :
    (withMoves e0 [.arrive 3 (frameBytes 0xEF frameA)]).agenda = [.arrive 3 (frameBytes 0xEF frameA)] ∧
    decode (frameBytes 0xEF frameA) = .ok (.uih false frameA, []) := by decide +kernel

theorem meets_ArrivalIsRxChunk :
    (withMoves e0 [.arrive 3 [0x07]]).agenda = [.arrive 3 [0x07]] := rfl

theorem meets_StepMakesTheNextMove :
    (withMoves e0 [.call 1 .start]).agenda = [.call 1 .start] ∧
    (withMoves e0 [.begin 1 .start]).agenda = [.begin 1 .start] ∧
    (withMoves e0 [.advance 1]).agenda = [.advance 1] ∧
    (withMoves e0 [.reply ⟨none, 0⟩]).agenda = [.reply ⟨none, 0⟩] ∧ e0.agenda = [] := ⟨rfl, rfl, rfl, rfl, rfl⟩

/-- Also for the statements of each codec operation. -/
theorem meets_CodecOperationsArePure :
    e0.life = .alive ∧ pureOp (.encodeHeader 63 0 true 127) = true ∧ wellFormed (.encodeHeader 63 0 true 127) = true ∧
    pureOp (.encodeHeader 64 0 true 127) = true ∧ wellFormed (.encodeHeader 64 0 true 127) = false := by decide

theorem meets_EncodeHeaderPacksFields :
    (63 ≤ 63 ∧ 127 ≤ 127) ∧ (63 < 64 ∨ 127 < 0) ∧ (63 < 0 ∨ 127 < 128) := by decide

theorem meets_HeaderRoundTrip : 63 ≤ 63 ∧ 127 ≤ 127 := by decide

theorem meets_WriteStringsAreFrames : 63 ≤ 63 ∧ text ∈ segments text := by decide +kernel

theorem meets_WriteSucceeds :
    e0.life = .alive ∧ 2 ≤ e0.cfg.nData.val ∧ e0.txlock = .free ∧
    (answers [some 4, some 5, some 2, none] e0).replies = [⟨some 4, 0⟩, ⟨some 5, 0⟩, ⟨some 2, 0⟩] ++ [⟨none, 0⟩] ∧
    Accepts [⟨some 4, 0⟩, ⟨some 5, 0⟩, ⟨some 2, 0⟩] (writeStrings 2 text) := by
  unfold Accepts
  decide +kernel

theorem meets_SendCtrlSucceeds :
    e0.life = .alive ∧ 2 ≤ e0.cfg.nData.val ∧ e0.txlock = .free ∧
    (answers [some 4, some 2] e0).replies = ⟨some 4, 0⟩ :: ⟨some 2, 0⟩ :: [] ∧
    (⟨some 4, 0⟩ : TxReply).ret = some 4 ∧ (⟨some 2, 0⟩ : TxReply).ret = some 2 := by decide

theorem meets_WriterAbortsOnFailure :
    WriterCall (.sendCtrl 2 0x2F true) 2 ([[0xF9, 0x0B, 0x3F, 0x01]] ++ [0x59, 0xF9] :: []) 0 ∧
    e0.life = .alive ∧ 2 ≤ e0.cfg.nData.val ∧ e0.txlock = .free ∧
    (answers [some 4, some 1] e0).replies = [⟨some 4, 0⟩] ++ ⟨some 1, 0⟩ :: [] ∧
    Accepts [⟨some 4, 0⟩] [[0xF9, 0x0B, 0x3F, 0x01]] ∧ (⟨some 1, 0⟩ : TxReply).ret ≠ some [(0x59 : Byte), 0xF9].length :=
  ⟨writerCall_ctrl, rfl, by decide, rfl, rfl, rfl, by decide⟩

theorem meets_WriterWaitsForTheLock :
    WriterCall (.write 2 []) 2 (writeStrings 2 []) 0 ∧ writing.life = .alive ∧ 2 ≤ writing.cfg.nData.val ∧
    writing.txlock = .held 5 := ⟨.write 2 [], rfl, by decide, rfl⟩

/-- A writer call of caller 5 where it stands, behind an RX_CHUNK of caller 6. -/
def writer (lock : TxLock) (job : TxJob) (rs : List TxReply) : State :=
  { e0 with txlock := lock, rxBusy := true, inflight := [.rx 6 [], .tx job], replies := rs }

/-- The moves of WriterWaitsForTheLock: the lock held by another and free; a TxWrite to make; no answer, a good one, a
short one; no string left. -/
theorem meets_WriterWaitsForTheLock_moves :
    (∀ (l : TxLock) (job : TxJob) (rs : List TxReply),
      (writer l job rs).inflight = [.rx 6 []] ++ .tx job :: [] ∧ (writer l job rs).txlock = l ∧
      (writer l job rs).replies = rs) ∧
    (∀ u ∈ [Task.rx 6 []], u.callerOf ≠ 5) ∧
    (⟨5, .waiting, [[0x41]], 0⟩ : TxJob).phase = .waiting ∧ (⟨5, .ready, [[0x41]], 0⟩ : TxJob).todo = [0x41] :: [] ∧
    (⟨5, .inWrite, [[0x41]], 0⟩ : TxJob).phase = .inWrite ∧ (⟨some 1, 0⟩ : TxReply).ret = some [(0x41 : Byte)].length ∧
    (⟨none, 1⟩ : TxReply).ret ≠ some [(0x41 : Byte)].length ∧ (⟨5, .ready, [], 0⟩ : TxJob).todo = [] :=
  ⟨fun _ _ _ => ⟨rfl, rfl, rfl⟩, by decide, rfl, rfl, rfl, rfl, by decide, rfl⟩

theorem meets_WriterHangsInTxWrite :
    WriterCall (.sendCtrl 2 0x2F true) 2 ([[0xF9, 0x0B, 0x3F, 0x01]] ++ [0x59, 0xF9] :: []) 0 ∧
    e0.life = .alive ∧ 2 ≤ e0.cfg.nData.val ∧ e0.txlock = .free ∧
    Accepts (answers [some 4] e0).replies [[0xF9, 0x0B, 0x3F, 0x01]] :=
  ⟨writerCall_ctrl, rfl, by decide, rfl, rfl⟩

/-- Another caller's WRITE, a move that leaves a state. -/
theorem meets_LockExcludesOtherWriters :
    Inv (withMoves writing [.call 6 (.write 1 text)]) ∧ (withMoves writing [.call 6 (.write 1 text)]).txlock = .held 5 ∧
    (after (step (withMoves writing [.call 6 (.write 1 text)]))).isSome = true ∧
    Move.call 6 (.write 1 text) ≠ .advance 5 ∧ (Move.call 6 (.write 1 text)).resets = false :=
  ⟨inv_writing, by decide +kernel⟩

theorem meets_SelfDeadlockIsForEver :
    Inv busyAgenda ∧ (after (step busyAgenda)).isSome = true ∧ (Move.advance 5).resets = false ∧
    Deadlocked 5 busyAgenda :=
  ⟨inv_busyAgenda, by decide +kernel, rfl, rfl, [], _, [], _, [], rfl, rfl, rfl, rfl, rfl⟩

theorem meets_CallRunsAsItsMoves :
    (begunOf (.uih false v1) e0).isSome = true ∧ (after (exec (.uih false v1) e0)).isSome = true ∧
    (begunOf (.write 1 text) e0).isSome = true ∧ (after (exec (.write 1 text) e0)).isSome = true := by decide +kernel

/-- A data frame on the last known channel, an acknowledgement, a frame on the first unknown channel; from INIT, from
RECOVER and from HEADER with cnt 1; the FCS verified and not. -/
theorem meets_FrameIsAccepted :
    (Inv (engine true true) ∧ readyForFrame (engine true true).cur ∧ (engine true true).life = .alive ∧
      (engine true true).rxBusy = false ∧ wellFormed (.uih false ⟨2, 3, 1, text, 0x5D⟩) = true ∧
      frameParts (.uih false ⟨2, 3, 1, text, 0x5D⟩) = some (0xEF, ⟨2, 3, 1, text, 0x5D⟩) ∧
      (0x5D : Byte) = fcsOf 0x0B 0xEF 0x0B ∧ (2 : BitVec 6).toNat ≤ e0.cfg.nData.val) ∧
    (Inv inRecover ∧ readyForFrame inRecover.cur ∧ inRecover.life = .alive ∧ inRecover.rxBusy = false ∧
      inRecover.cfg.verifyFcs = false ∧ wellFormed (.ack (empty1 0)) = true ∧
      frameParts (.ack (empty1 0)) = some (0x73, empty1 0) ∧ (0x73 : Byte) = inRecover.cfg.ackCtrl) ∧
    (Inv (inHeader 1) ∧ readyForFrame (inHeader 1).cur ∧ (inHeader 1).life = .alive ∧ (inHeader 1).rxBusy = false ∧
      (inHeader 1).cfg.verifyFcs = false ∧ wellFormed (.ack ⟨3, 3, 1, [], 0⟩) = true ∧
      (inHeader 1).cfg.nData.val < (3 : BitVec 6).toNat) :=
  ⟨⟨inv_verifying, .inl rfl, by decide +kernel⟩, ⟨inv_inRecover, .inr (.inl rfl), by decide +kernel⟩,
    inv_inHeader, .inr (.inr ⟨rfl, rfl⟩), by decide +kernel⟩

/-- As before, with a wrong FCS; with and without DEFRAG. -/
theorem meets_FcsMismatchRejects :
    (Inv (engine true true) ∧ readyForFrame (engine true true).cur ∧ (engine true true).life = .alive ∧
      (engine true true).rxBusy = false ∧ (engine true true).cfg.verifyFcs = true ∧
      wellFormed (.uih false ⟨2, 3, 1, text, 0x00⟩) = true ∧
      frameParts (.uih false ⟨2, 3, 1, text, 0x00⟩) = some (0xEF, ⟨2, 3, 1, text, 0x00⟩) ∧
      (0x00 : Byte) ≠ fcsOf 0x0B 0xEF 0x0B ∧ (engine true true).cfg.defrag = true) ∧
    (Inv (engine false true) ∧ readyForFrame (engine false true).cur ∧ (engine false true).life = .alive ∧
      (engine false true).rxBusy = false ∧ (engine false true).cfg.verifyFcs = true ∧
      (engine false true).cfg.defrag = false) ∧
    (wellFormed (.uih false ⟨3, 3, 1, [0x41], 0x00⟩) = true ∧ (0x00 : Byte) ≠ fcsOf 0x0F 0xEF 0x03 ∧
      (engine true true).cfg.nData.val < (3 : BitVec 6).toNat) :=
  ⟨⟨inv_verifying, .inl rfl, by decide +kernel⟩, ⟨inv_slicing_verifying, .inl rfl, by decide +kernel⟩,
    by decide +kernel⟩

/-- The states of InitTakesAMarkerOrRecovers, HeaderStoresOctets, HeaderCompletes, FooterTakesTheTrailer (cnt 4),
BadEndMarkerRecovers, RecoverScansForMarker and EmptyChunkChangesNothing, all of the invariant. -/
theorem meets_byte_steps :
    [e0, inHeader 1, inHeader 2, inHeader 3, inFooter 4, inFooter 5, inRecover].all (fun s =>
      s.life == .alive && !s.rxBusy && s.callback == none && decide (Inv s)) = true ∧
    e0.cur.st = .init ∧ (inHeader 1).cur.st = .header ∧ (inHeader 1).cur.cnt = 1 ∧ (inHeader 2).cur.st = .header ∧
    (inHeader 2).cur.cnt = 2 ∧ (inHeader 3).cur.st = .header ∧ (inHeader 3).cur.cnt = 3 ∧
    (inFooter 4).cur.st = .footer ∧ (inFooter 4).cur.cnt = 4 ∧ (inFooter 5).cur.st = .footer ∧
    (inFooter 5).cur.cnt = 5 ∧ inRecover.cur.st = .recover ∧ (0x00 : Byte) ≠ 0xF9 ∧
    (0xF9 : Byte) ∉ ([0x07, 0xEF] : Bytes) := by decide +kernel

/-- The closing octet of a frame on channel 2 with its payload gathered. -/
def closing (s : State) (a c l f : Byte) (rlen : Nat) : State :=
  at' s .footer 5 ⟨0, a, c, l, f, 0⟩ (chanOf a) c 0 rlen

/-- FooterTakesTheTrailer with cnt 5: a wrong FCS; an acknowledgement with a right one; a gathered payload of the
largest length; an unknown channel; slices already delivered; no payload. -/
theorem meets_FooterTakesTheTrailer :
    [closing (engine true true) 0x0B 0xEF 0x0B 0x00 5, closing (engine true true) 0x07 0x73 0x01 0x15 0,
      closing e0 0x0B 0xEF 0xFF 0x00 127, closing e0 0x0F 0xEF 0x03 0x00 0,
      closing (engine false false) 0x0B 0xEF 0x0B 0x00 0, closing e0 0x0B 0xEF 0x01 0x00 0].all (fun s =>
      s.life == .alive && !s.rxBusy && s.callback == none && s.cur.st == .footer && s.cur.cnt == 5 &&
        decide (Inv s)) = true ∧
    (engine true true).cfg.verifyFcs = true ∧ (0x00 : Byte) ≠ fcsOf 0x0B 0xEF 0x0B ∧
    (0x15 : Byte) = fcsOf 0x07 0x73 0x01 ∧ route (closing (engine true true) 0x07 0x73 0x01 0x15 0) = .ack ∧
    e0.cfg.verifyFcs = false ∧ e0.cfg.defrag = true ∧ route (closing e0 0x0B 0xEF 0xFF 0x00 127) = .data ∧
    route (closing e0 0x0F 0xEF 0x03 0x00 0) = .drop ∧ (engine false false).cfg.defrag = false ∧
    route (closing (engine false false) 0x0B 0xEF 0x0B 0x00 0) = .data ∧
    route (closing e0 0x0B 0xEF 0x01 0x00 0) = .data := by decide +kernel

/-- A slice shorter than the payload and the whole of it; with DEFRAG, without, and on a channel that is not known. -/
theorem meets_PayloadSliceIsTaken :
    [inPayload e0, inPayload (engine false false)].all (fun s =>
      s.life == .alive && !s.rxBusy && s.cur.st == .payload && decide (Inv s) && decide (route s = .data) &&
        decide (text.length ≤ s.cur.rem) && decide ((text.take 2).length ≤ s.cur.rem)) = true ∧
    decide (Inv (at' e0 .payload 4 ⟨0, 0x0F, 0xEF, 0x0B, 0, 0⟩ 3 0xEF 5 0)) = true ∧
    route (at' e0 .payload 4 ⟨0, 0x0F, 0xEF, 0x0B, 0, 0⟩ 3 0xEF 5 0) ≠ .data := by decide +kernel

theorem meets_RxChunkCompletes :
    Inv (engine false false) ∧ (engine false false).life = .alive ∧ (engine false false).rxBusy = false ∧
    (engine false false).cfg.defrag = false := ⟨inv_slicing, by decide +kernel⟩

theorem meets_ChunkingInvariance :
    Inv e0 ∧ e0.cfg.defrag = true ∧ (after (exec (.rxChunk ([0xF9, 0x07] ++ [0xEF])) e0)).isSome = true ∧
    (after (exec (.rxChunk [0xF9, 0x07]) e0)).isSome = true ∧
    (after (andThen (exec (.rxChunk [0xF9, 0x07]) e0) (.rxChunk [0xEF]))).isSome = true :=
  ⟨inv_e0, by decide +kernel⟩

/-- The sender of V1 succeeds; the receiver is at a frame boundary with a callback on the channel. -/
theorem meets_LoopbackDeliversThePayload :
    Inv e0 ∧ values (exec (.write 2 text) (answers [some 4, some 5, some 2] e0)) = some [.count text.length] ∧
    e0.life = .alive ∧ e0.rxBusy = false ∧ e0.cur.st = .init ∧ 2 ≤ e0.cfg.nData.val ∧
    e0.cbAt 2 = some ⟨12⟩ := ⟨inv_e0, by decide +kernel⟩

theorem meets_OverlappingRxIsRefused :
    inbound (.rxChunk []) = true ∧ inbound (.ack frameA) = true ∧ (e0.setBusy true).life = .alive ∧
    (e0.setBusy true).rxBusy = true := by decide

/-- For REGISTER_CALLBACK, SET_OPEN, GET_OPEN and DISPATCH: the last known channel and the first unknown one, a callback
and none, another channel. -/
theorem meets_registry :
    e0.life = .alive ∧ 2 ≤ e0.cfg.nData.val ∧ e0.cfg.nData.val < 3 ∧ e0.cbAt 2 = some ⟨12⟩ ∧
    State.reset.life = .alive ∧ 2 ≤ State.reset.cfg.nData.val ∧ State.reset.cbAt 2 = none ∧ 63 ≤ 63 ∧ 63 ≠ 2 := by
  decide +kernel

/-- For ACK_READ, ACK_CLEAR, START, STOP, TEARDOWN, AfterTeardownRefused and ChannelRangeRefused. -/
theorem meets_lifecycle :
    e0.life = .alive ∧ torn.life = .tornDown ∧ e0.rxBusy = false ∧ e0.txlock = .free ∧
    e0.inflight.any Task.isTx = false ∧ (e0.setBusy true).rxBusy = true ∧ writing.txlock ≠ .free ∧
    writing.life = .alive ∧ deadlocked.inflight.any Task.isTx = true ∧ e0.cfg.nData.val < 3 ∧
    Instr.ackClear ≠ .ackRead ∧ Instr.crc8 [] ≠ .ackRead := by decide

theorem meets_AfterTeardownRefused :
    (∀ r, Instr.ackClear ≠ .reset r) ∧ ∀ r, Instr.crc8 [] ≠ .reset r := ⟨by simp, by simp⟩

theorem meets_ResetConstructsAnInstance : 63 ≤ 63 ∧ 63 < 64 := by decide

/-- For InvariantIsKept and NoStepFaults: states of the invariant that no call of a fresh instance is in. -/
theorem meets_InvariantIsKept :
    Inv busyAgenda ∧ Inv (withMoves (inPayload e0) [.arrive 0 text]) ∧ Inv torn ∧
    (after (step busyAgenda)).isSome = true ∧
    (after (step (withMoves (inPayload e0) [.arrive 0 text]))).isSome = true :=
  ⟨inv_busyAgenda, inv_inPayload, inv_torn, by decide +kernel⟩

theorem meets_OnlyTheDecoderWritesTheCursor :
    inbound (.write 1 text) = false ∧ (∀ r, Instr.write 1 text ≠ .reset r) ∧ Instr.write 1 text ≠ .ackClear ∧
    (after (exec (.write 1 text) e0)).isSome = true := ⟨rfl, by simp, by simp, by decide +kernel⟩

theorem meets_RegistryHasOneWriter :
    (∀ r, Instr.uih false v1 ≠ .reset r) ∧ (∀ ch h, Instr.uih false v1 ≠ .registerCallback ch h) ∧
    (∀ ch, Instr.uih false v1 ≠ .setOpen ch) ∧ Instr.uih false v1 ≠ .teardown ∧
    (after (exec (.uih false v1) e0)).isSome = true :=
  ⟨by simp, by simp, by simp, by simp, by decide +kernel⟩

theorem meets_OpenFlagsAreNeverCleared :
    (withMoves (e0.setOpened 2) [.call 1 .teardown]).agenda = [.call 1 .teardown] ∧
    (Move.call 1 .teardown).resets = false ∧
    (after (step (withMoves (e0.setOpened 2) [.call 1 .teardown]))).isSome = true ∧
    (withMoves (e0.setOpened 2) [.call 1 .teardown]).openAt 2 = true := by decide +kernel

/-- The agent at its poll. -/
def polling (tries : Nat) : Handshake := ⟨0, 0x2F, 3, 2, tries, .poll⟩

/-- An engine whose agent polls. -/
def opening (s : State) (tries : Nat) : State := { s with handshake := some (polling tries), agenda := [.openTick] }

/-- The acknowledgement of the agent's channel is there: its next phase is the one that calls SET_OPEN; and the move of
that phase, with another channel. -/
theorem meets_HandshakeOpensAfterAck :
    (opening (e0.setAck (some 2)) 0).handshake = some (polling 0) ∧ (polling 0).phase ≠ .mark ∧
    (after (step (opening (e0.setAck (some 2)) 0))).map (fun t => t.handshake.map Handshake.phase) =
      some (some .mark) ∧
    (after (step { opening e0 0 with handshake := some { polling 0 with phase := .mark } })).isSome = true ∧
    63 ≤ 63 ∧ 63 ≠ (polling 0).ch := by decide +kernel

/-- The agent of a caller inside RX_CHUNK goes on to its poll when its SEND_CTRL has returned (log 21). -/
theorem test_open_inside_rx_chunk :
    (after (step { opening e0 0 with
      rxBusy := true, inflight := [.rx 0 []], results := [⟨0, .count 0⟩]
      handshake := some { polling 0 with phase := .sent } })).map (fun t => t.handshake.map Handshake.phase) =
      some (some .poll) := by decide +kernel

/-- Stop requested; the last try; a try that is not the last. -/
theorem meets_HandshakeEndsOnTimeoutAndStop :
    (opening torn 0).life = .tornDown ∧ (opening e0 2).life = .alive ∧ (opening e0 2).ackReg ≠ some (polling 2).ch ∧
    (polling 2).retryBound ≤ (polling 2).tries + 1 ∧ (polling 1).tries + 1 < (polling 1).retryBound ∧
    (polling 1).phase = .poll := by decide +kernel

end Sys2Proof.Tests
end

section
/-! PROOFS. What a begun call leaves alone, whatever state it starts from; what an instruction can do, said once; the
frame statements of 10_state.md: who writes the cursor, the registry and the open flags. -/

namespace Sys2Proof.Machine

/-! ### Decoder steps, from any state -/

/-- A decoder step that answers a state leaves alone what the decoder does not write. -/
def StepLeaves (s : State) (r : Except Fault State) : Prop := ∀ t, r = .ok t → Untouched s t

theorem StepLeaves.ok {s t : State} (h : Untouched s t) : StepLeaves s (.ok t) := by
  rintro _ ⟨⟩
  exact h

theorem StepLeaves.error (s : State) (f : Fault) : StepLeaves s (.error f) := by
  intro t h
  cases h

theorem StepLeaves.after {s t : State} {r : Except Fault State} (hu : Untouched s t) (h : StepLeaves t r) :
    StepLeaves s r := fun u hr => hu.trans (h u hr)

theorem acceptFrame_leaves (s : State) : StepLeaves s (acceptFrame s) := by
  unfold acceptFrame
  split
  · exact .ok (((untouched_setAck s _).trans (untouched_emit _ _)).trans (untouched_closeFrame _))
  · exact .ok (untouched_closeFrame s)
  · split
    · split
      · exact .ok ((untouched_dispatch _ _ s).trans (untouched_closeFrame _))
      · exact .error s _
    · exact .ok (untouched_closeFrame s)

theorem frameEnd_leaves (s : State) : StepLeaves s (frameEnd s) := by
  unfold frameEnd
  split
  · split
    · exact .ok (untouched_resync _ s)
    · exact acceptFrame_leaves s
  · exact .ok (untouched_resync _ s)

theorem storeHdr_leaves (b : Byte) (s : State) {k : State → Except Fault State} (hk : ∀ t, StepLeaves t (k t)) :
    StepLeaves s (storeHdr b s k) := by
  unfold storeHdr
  split
  · exact .after (untouched_setCur s _) (hk _)
  · exact .error s _

theorem payloadStep_leaves (bs : Bytes) (s : State) : StepLeaves s (payloadStep bs s) := by
  have htake : StepLeaves s (takePayload bs s) := by
    unfold takePayload
    split
    · split
      · split
        · exact .ok (untouched_setCur s _)
        · exact .error s _
      · exact .ok (untouched_dispatch _ _ s)
    · exact .ok (Untouched.refl s)
  unfold payloadStep
  split
  · next t ht => exact .ok ((htake t ht).trans (untouched_countPayload _ t))
  · exact .error s _

theorem byteStep_leaves (b : Byte) (s : State) : StepLeaves s (byteStep b s) := by
  unfold byteStep
  split
  · split
    · exact .ok (untouched_openFrame s)
    · exact .ok (untouched_resync _ s)
  · split
    · exact .ok (Untouched.refl s)
    · refine storeHdr_leaves b s fun t => .ok ?_
      split
      · exact untouched_headerDone t
      · exact Untouched.refl t
  · exact payloadStep_leaves [b] s
  · refine storeHdr_leaves b s fun t => ?_
    split
    · exact frameEnd_leaves t
    · exact .ok (Untouched.refl t)
  · split
    · exact .ok (untouched_openFrame s)
    · exact .ok (Untouched.refl s)

/-! ### Moves of a call, from any state -/

/-- The state that a move leaves, if it leaves one. -/
def Moved.after : Moved → Option State
  | .returned s => some s
  | .goesOn _ s => some s
  | _ => none

/-- The registry, the configuration and the life of the engine (10_state.md R20, R30, R31, R34). -/
def State.registry (s : State) : Cfg × Vector (Option Handle) Config.numIds × Vector Bool Config.numIds × Life :=
  (s.cfg, s.cb, s.opened, s.life)

/-- The cursor, `rx_busy` and the acknowledgement register (10_state.md R21, R32, R35). -/
def State.receiver (s : State) : Cursor × Bool × Option Nat := (s.cur, s.rxBusy, s.ackReg)

theorem State.registry_eq_iff {s t : State} :
    t.registry = s.registry ↔ t.cfg = s.cfg ∧ t.cb = s.cb ∧ t.opened = s.opened ∧ t.life = s.life := by
  simp [State.registry]

theorem Untouched.registry {s t : State} (h : Untouched s t) : t.registry = s.registry :=
  State.registry_eq_iff.2 ⟨h.cfg, h.cb, h.opened, h.life⟩

/-- A decoder step as a move leaves what the step leaves. -/
theorem onward_registry {s u : State} {t : Task} {r : Except Fault State} (hr : StepLeaves s r)
    (h : (onward t r).after = some u) : u.registry = s.registry := by
  cases r with
  | error f => cases h
  | ok v =>
    cases h
    exact (hr u rfl).registry

/-- A move of a writer call leaves the registry and the receiver's state. -/
theorem txMove_frame {job : TxJob} {s u : State} (h : (txMove job s).after = some u) :
    u.registry = s.registry ∧ u.receiver = s.receiver := by
  rcases txMove_cases job s with ⟨_, _, e⟩ | ⟨_, _, e⟩ | ⟨_, _, e⟩ | ⟨_, _, _, _, e⟩ | ⟨_, _, _, _, _, e⟩ |
    ⟨_, _, _, _, _, _, _, _, e⟩ | ⟨_, _, _, _, _, _, _, _, e⟩ <;> rw [e] at h <;> cases h <;>
    simp [State.registry, State.receiver, txReturn]

/-- A move of any call leaves the registry. -/
theorem moveTask_registry {t : Task} {s u : State} (h : (moveTask t s).after = some u) : u.registry = s.registry := by
  cases t with
  | tx job => exact (txMove_frame h).1
  | rx c rest =>
    simp only [moveTask] at h
    rcases rxMove_cases c rest s with ⟨_, e⟩ | ⟨_, _, e⟩ | ⟨_, _, _, e⟩ | ⟨_, _, b, bs, _, e⟩ <;> rw [e] at h
    · cases h; rfl
    · cases h; rfl
    · exact onward_registry (payloadStep_leaves _ s) h
    · exact onward_registry (byteStep_leaves b s) h

/-- A view of the state that no move of a call changes, and that does not see the calls in flight, is not changed by
running the call. `K` is what is known of the task. -/
theorem runTask_view {α : Type} {f : State → α} {K : Task → Prop} (hpark : ∀ t s, f (s.park t) = f s)
    (hmove : ∀ t s u, K t → (moveTask t s).after = some u → f u = f s)
    (hgo : ∀ t s t' s', K t → moveTask t s = .goesOn t' s' → K t')
    {n : Nat} {t : Task} {s u : State} (ht : K t) (h : runTask n t s = .next u) : f u = f s := by
  induction n generalizing t s with
  | zero => cases h; exact hpark t s
  | succ n ih =>
    unfold runTask at h
    have hm := hmove t s
    have hg := hgo t s
    cases e : moveTask t s with
    | blocked => simp only [e] at h; cases h; exact hpark t s
    | fault f => simp only [e] at h; cases h
    | returned s' => simp only [e] at h hm; cases h; exact hm _ ht rfl
    | goesOn t' s' =>
      simp only [e] at h hm
      exact (ih (hg t' s' ht e) h).trans (hm s' ht rfl)

/-- A writer call stays a writer call from move to move. -/
theorem moveTask_isTx {t t' : Task} {s s' : State} (ht : t.isTx = true) (h : moveTask t s = .goesOn t' s') :
    t'.isTx = true := by
  cases t with
  | rx c rest => cases ht
  | tx job =>
    simp only [moveTask] at h
    rcases txMove_cases job s with ⟨_, _, e⟩ | ⟨_, _, e⟩ | ⟨_, _, e⟩ | ⟨_, _, _, _, e⟩ | ⟨_, _, _, _, _, e⟩ |
      ⟨_, _, _, _, _, _, _, _, e⟩ | ⟨_, _, _, _, _, _, _, _, e⟩ <;> rw [e] at h <;> cases h <;> rfl

theorem runTask_registry {n : Nat} {t : Task} {s u : State} (h : runTask n t s = .next u) :
    u.registry = s.registry :=
  runTask_view (K := fun _ => True) (fun _ _ => rfl) (fun _ _ _ _ => moveTask_registry) (fun _ _ _ _ _ _ => trivial)
    trivial h

theorem runTask_receiver {n : Nat} {t : Task} {s u : State} (ht : t.isTx = true) (h : runTask n t s = .next u) :
    u.receiver = s.receiver := by
  refine runTask_view (K := fun t => t.isTx = true) (fun _ _ => rfl) (fun t s u ht h => ?_)
    (fun _ _ _ _ => moveTask_isTx) ht h
  cases t with
  | rx c rest => cases ht
  | tx job => exact (txMove_frame h).2

/-! ### What an instruction can do -/

/-- How a call that can be in flight begins: as an RX_CHUNK for an inbound instruction, else as a writer call. -/
theorem begunOf_cases {i : Instr} {s : State} {b : Begun} (h : begunOf i s = some b) :
    (inbound i = true ∧ ∃ c, b = beginRx c s) ∨ (outbound i = true ∧ ∃ ch ws n, b = beginTx ch ws n s) := by
  cases i <;> cases h
  case write ch p => exact .inr ⟨rfl, _, _, _, rfl⟩
  case sendCtrl ch kind pf => exact .inr ⟨rfl, _, _, _, rfl⟩
  all_goals exact .inl ⟨rfl, _, rfl⟩

theorem beginRx_begun {c : Bytes} {s s' : State} {t : Task} (h : beginRx c s = .begun t s') :
    s.life = .alive ∧ s.rxBusy = false ∧ t = .rx s.caller c ∧ s' = s.setBusy true := by
  unfold beginRx at h
  split at h
  · cases h
  · next hl =>
    split at h
    · cases h
    · next hb =>
      cases h
      exact ⟨hl, by simpa using hb, rfl, rfl⟩

theorem beginTx_begun {ch n : Nat} {ws : List Bytes} {s s' : State} {t : Task} (h : beginTx ch ws n s = .begun t s') :
    s.life = .alive ∧ t = .tx ⟨s.caller, .waiting, ws, n⟩ ∧ s' = s := by
  unfold beginTx at h
  split at h
  · cases h
  · next hl =>
    split at h
    · cases h
      exact ⟨hl, rfl, rfl⟩
    · cases h

/-- What making a call can answer: the run of a begun call; a refusal; outputs alone; or the one write that the
instruction is there for. -/
inductive Effect (s : State) : Instr → Result → Prop where
  | call {i b r} (hb : begunOf i s = some b) (h : runBegun b = r) : Effect s i r
  | refused (i q) : Effect s i (.refused q)
  | outputs (i es ds ps rs) : Effect s i (.next { s with events := es, diags := ds, portCalls := ps, results := rs })
  | registered (ch h) (hl : s.life = .alive) (hk : ch ≤ s.cfg.nData.val) :
    Effect s (.registerCallback ch h) (.next (s.setCb ch h))
  | opened (ch) (hl : s.life = .alive) (hk : ch ≤ s.cfg.nData.val) : Effect s (.setOpen ch) (.next (s.setOpened ch))
  | cleared : Effect s .ackClear (.next (s.setAck none))
  | tornDown (hb : busy s = false) : Effect s .teardown (.next { s with life := .tornDown })
  | reset (r cfg) : Effect s (.reset r) (.next (rebuild cfg s))

/-- A call that is checked for life first has the effect of its work, or is refused. -/
theorem Effect.whenAlive {s : State} {i : Instr} {k : Result} (h : s.life = .alive → Effect s i k) :
    Effect s i (whenAlive s k) := by
  cases hl : s.life with
  | alive => rw [whenAlive_of_alive hl]; exact h hl
  | tornDown => rw [whenAlive_of_tornDown hl]; exact .refused i _

theorem Effect.onChannel {s : State} {i : Instr} {ch : Nat} {k : Result}
    (h : s.life = .alive → ch ≤ s.cfg.nData.val → Effect s i k) : Effect s i (onChannel ch s k) := by
  refine .whenAlive fun hl => ?_
  split
  · next hk => exact h hl (by simpa [known] using hk)
  · exact .refused i _

theorem Effect.dispatch (s : State) (i : Instr) (ch : Nat) (bs : Bytes) :
    Effect s i (.next ((dispatch ch bs s).setCallback s.callback)) := by
  rcases dispatch_cases ch bs s with ⟨_, e⟩ | ⟨_, _, e⟩ | ⟨_, h, _, e⟩ <;> rw [e] <;> exact .outputs i _ _ _ _

theorem exec_effect (i : Instr) (s : State) : Effect s i (exec i s) := by
  cases i with
  | rr _ _ | ui _ _ | rnr _ _ | rej _ _ | dm _ _ | sabm _ _ | disc _ _ | ua _ _ | uih _ _ | ack _ | anyOtherControl _ _
  | rxChunk _ | write _ _ | sendCtrl _ _ _ => exact .call rfl rfl
  | crc8 _ | fcs _ _ _ | encodeTrailer _ | decodeHeader _ | fcsCheck _ _ _ _ | start | stop =>
    exact .whenAlive fun _ => .outputs _ _ _ _ _
  | encodeHeader ch kind pf n =>
    refine .whenAlive fun _ => ?_
    split
    · exact .outputs _ _ _ _ _
    · exact .refused _ _
  | registerCallback ch h => exact .onChannel fun hl hk => .registered ch h hl hk
  | dispatch ch bs => exact .whenAlive fun _ => .dispatch s _ ch bs
  | setOpen ch => exact .onChannel fun hl hk => .opened ch hl hk
  | getOpen ch => exact .onChannel fun _ _ => .outputs _ _ _ _ _
  | ackRead => exact .outputs _ _ _ _ _
  | ackClear => exact .whenAlive fun _ => .cleared
  | teardown =>
    refine .whenAlive fun _ => ?_
    split
    · exact .refused _ _
    · next hb => exact .tornDown (by simpa using hb)
  | reset r =>
    show Effect s _ (execReset r s)
    unfold execReset
    split
    · exact .reset r _
    · exact .refused _ _

/-- The beginning of a call writes no more than `rx_busy`. -/
theorem begunOf_registry {i : Instr} {s s' : State} {t : Task} (h : begunOf i s = some (.begun t s')) :
    s'.registry = s.registry := by
  rcases begunOf_cases h with ⟨_, c, e⟩ | ⟨_, ch, ws, n, e⟩
  · obtain ⟨-, -, -, rfl⟩ := beginRx_begun e.symm
    rfl
  · obtain ⟨-, -, rfl⟩ := beginTx_begun e.symm
    rfl

/-! ### Frames of the instructions -/

/-- A begun call, run to its return or to where it must wait, leaves the registry. -/
theorem runBegun_registry {i : Instr} {s u : State} {b : Begun} (hb : begunOf i s = some b)
    (h : runBegun b = .next u) : u.registry = s.registry := by
  cases b with
  | refused q => cases h
  | begun t s' => exact (runTask_registry h).trans (begunOf_registry hb)

/-- A writer call, run to its return or to where it must wait, leaves the receiver's state. -/
theorem runBegun_receiver {i : Instr} {s u : State} {b : Begun} (hi : inbound i = false) (hb : begunOf i s = some b)
    (h : runBegun b = .next u) : u.receiver = s.receiver := by
  cases b with
  | refused q => cases h
  | begun t s' =>
    rcases begunOf_cases hb with ⟨hin, -⟩ | ⟨_, ch, ws, n, e⟩
    · exact absurd (hin.symm.trans hi) (by decide)
    · obtain ⟨-, rfl, rfl⟩ := beginTx_begun e.symm
      exact runTask_receiver rfl h

/-- Settles O57: the effects of the instructions, and no move of a call writes the registry. -/
theorem registryHasOneWriter : Obligations.RegistryHasOneWriter := by
  unfold Obligations.RegistryHasOneWriter
  intro i s t h hr
  have he := exec_effect i s
  rw [h] at he
  cases he with
  | call hb hrun =>
    obtain ⟨hcfg, hcb, hop, hlife⟩ := State.registry_eq_iff.1 (runBegun_registry hb hrun)
    exact ⟨hcfg, fun _ => hcb, fun _ => hop, fun _ => hlife⟩
  | outputs _ es ds ps rs => exact ⟨rfl, fun _ => rfl, fun _ => rfl, fun _ => rfl⟩
  | registered ch hd => exact ⟨rfl, fun hn => absurd rfl (hn ch hd), fun _ => rfl, fun _ => rfl⟩
  | opened ch => exact ⟨rfl, fun _ => rfl, fun hn => absurd rfl (hn ch), fun _ => rfl⟩
  | cleared => exact ⟨rfl, fun _ => rfl, fun _ => rfl, fun _ => rfl⟩
  | tornDown hb => exact ⟨rfl, fun _ => rfl, fun _ => rfl, fun hn => absurd rfl hn⟩
  | reset r cfg => exact absurd rfl (hr r)

/-- Settles O56: the effects of the instructions, and no move of a writer call writes what the receiver owns. -/
theorem onlyTheDecoderWritesTheCursor : Obligations.OnlyTheDecoderWritesTheCursor := by
  unfold Obligations.OnlyTheDecoderWritesTheCursor
  intro i s t h hi hr
  have he := exec_effect i s
  rw [h] at he
  cases he with
  | call hb hrun =>
    have hrec := runBegun_receiver hi hb hrun
    simp only [State.receiver, Prod.mk.injEq] at hrec
    obtain ⟨hcur, hbusy, hack⟩ := hrec
    exact ⟨hcur, hbusy, fun _ => hack⟩
  | cleared => exact ⟨rfl, rfl, fun hn => absurd rfl hn⟩
  | reset r cfg => exact absurd rfl (hr r)
  | _ => exact ⟨rfl, rfl, fun _ => rfl⟩

/-! ### Open flags -/

/-- What an answer does to the open flags of `s`: none is cleared. -/
def KeepsOpen (s : State) (r : Result) : Prop := ∀ t c, r = .next t → s.openAt c = true → t.openAt c = true

theorem KeepsOpen.of_registry {s t : State} (h : t.registry = s.registry) : KeepsOpen s (.next t) := by
  obtain ⟨-, -, hop, -⟩ := State.registry_eq_iff.1 h
  rintro _ c ⟨⟩ hc
  rwa [State.openAt, hop]

theorem KeepsOpen.andAgent {s : State} {r : Result} (h : KeepsOpen s r) (hs : Option Handshake) (res : Option Bool) :
    KeepsOpen s (andAgent r hs res) := by
  cases r with
  | next u =>
    rintro _ c ⟨⟩
    exact h u c rfl
  | fault f => rintro _ c ⟨⟩
  | refused q => rintro _ c ⟨⟩

theorem exec_keepsOpen {i : Instr} (s : State) (hr : ∀ r, i ≠ .reset r) : KeepsOpen s (exec i s) := by
  intro t c h
  have he := exec_effect i s
  rw [h] at he
  cases he with
  | opened ch => exact State.openAt_setOpened_mono s ch c
  | call hb hrun => exact KeepsOpen.of_registry (runBegun_registry hb hrun) t c rfl
  | reset r cfg => exact absurd rfl (hr r)
  | _ => exact id

theorem decodeBody_ok {a c l : Byte} {body rest : Bytes} {i : Instr} (h : decodeBody a c l body = .ok (i, rest)) :
    ∃ f, i = instrOf c f := by
  unfold decodeBody at h
  split at h
  · split at h
    · cases h
      exact ⟨_, rfl⟩
    · cases h
  · cases h

/-- A decoded instruction is a frame with its control octet. -/
theorem decode_ok {bytes rest : Bytes} {i : Instr} (h : decode bytes = .ok (i, rest)) : ∃ c f, i = instrOf c f := by
  unfold decode at h
  split at h
  · cases h
  · split at h
    · split at h
      · cases h
      · split at h
        · cases h
        · split at h
          · exact ⟨_, decodeBody_ok h⟩
          · cases h
    · cases h

theorem inbound_instrOf (c : Byte) (f : Frame) : inbound (instrOf c f) = true := by
  have hparts := frameParts_instrOf c f
  unfold inbound
  split
  · rfl
  · rw [hparts]; rfl

/-- What an arrival is read as hands octets to the decoder, so it is no RESET. -/
theorem inbound_fetch (chunk : Bytes) : inbound (fetch chunk) = true := by
  unfold fetch
  split
  · next i h =>
    obtain ⟨c, f, rfl⟩ := decode_ok h
    exact inbound_instrOf c f
  · rfl

theorem ne_reset_of_inbound {i : Instr} (h : inbound i = true) (r : CfgRequest) : i ≠ .reset r := by
  rintro rfl
  cases h

theorem parkBegun_keepsOpen {i : Instr} {s : State} {b : Begun} (hb : begunOf i s = some b) :
    KeepsOpen s (parkBegun b) := by
  cases b with
  | refused q => rintro _ c ⟨⟩
  | begun t s' =>
    have hreg := begunOf_registry hb
    exact KeepsOpen.of_registry (t := s'.park t) hreg

theorem beginCall_keepsOpen {i : Instr} (s : State) (hr : ∀ r, i ≠ .reset r) : KeepsOpen s (beginCall i s) := by
  unfold beginCall
  split
  · next hb => exact parkBegun_keepsOpen hb
  · exact exec_keepsOpen s hr

theorem advance_keepsOpen (c : Caller) (s : State) : KeepsOpen s (advance c s) := by
  unfold advance
  split
  · exact .of_registry rfl
  · next pre t post _ =>
    have hm := fun u => moveTask_registry (t := t) (s := s) (u := u)
    split
    · exact .of_registry rfl
    · rintro _ c ⟨⟩
    · next u e => exact .of_registry (hm u (by rw [e]; rfl))
    · next t' u e => exact .of_registry (hm u (by rw [e]; rfl))

theorem openTick_keepsOpen (s : State) : KeepsOpen s (openTick s) := by
  unfold openTick
  split
  · exact .of_registry rfl
  · next hs _ =>
    have hexec : ∀ i h res, (∀ r, i ≠ .reset r) →
        KeepsOpen s (andAgent (exec i (s.setCaller hs.caller)) h res) :=
      fun i h res hr => (exec_keepsOpen (s.setCaller hs.caller) hr).andAgent h res
    unfold handshakeMove
    dsimp only
    split
    · exact hexec _ _ _ nofun
    · exact hexec _ _ _ nofun
    · split
      · exact .of_registry rfl
      · split <;> exact .of_registry rfl
    · exact hexec _ _ _ nofun
    · exact hexec _ _ _ nofun

theorem perform_keepsOpen {m : Move} (s : State) (hm : m.resets = false) : KeepsOpen s (perform m s) := by
  cases m with
  | arrive c chunk => exact exec_keepsOpen (s.setCaller c) (ne_reset_of_inbound (inbound_fetch chunk))
  | call c i =>
    refine exec_keepsOpen (s.setCaller c) ?_
    rintro r rfl
    cases hm
  | begin c i =>
    refine beginCall_keepsOpen (s.setCaller c) ?_
    rintro r rfl
    cases hm
  | advance c => exact advance_keepsOpen c s
  | reply r => exact .of_registry rfl
  | openBegin c sabmCtrl retryBound => exact .of_registry rfl
  | openTick => exact openTick_keepsOpen s

/-- Settles O58: the move that is made clears no open flag. -/
theorem openFlagsAreNeverCleared : Obligations.OpenFlagsAreNeverCleared := by
  unfold Obligations.OpenFlagsAreNeverCleared
  intro s t m ms c hag hm h
  unfold step at h
  rw [hag] at h
  exact perform_keepsOpen { s with agenda := ms } hm t c h

end Sys2Proof.Machine
end

section
/-! PROOFS. The invariant (Safety.lean): it holds at construction, every move of a call in flight keeps it, every
instruction and every move of the environment keep it and none of them faults. -/

namespace Sys2Proof.Machine

/-! ### At construction -/

theorem cursorInv_reset (cfg : Cfg) {hdr : Hdr} {m : Memory} (hw : m.wf = true) (hb : Memory.below m Config.rbufCap) :
    CursorInv cfg { Cursor.reset with hdr := hdr, rbuf := m } :=
  .ofIdle (.inl rfl) rfl rfl ⟨Nat.zero_le _, Nat.zero_le _, Nat.zero_le _, hw, hb⟩

theorem construct_inv (cfg : Cfg) : Inv (State.construct cfg) := by
  refine ⟨cursorInv_reset cfg (m := []) rfl rfl, ⟨rfl, rfl, rfl, nofun, nofun⟩, ⟨fun c _ => ?_, rfl⟩, rfl⟩
  simp [State.construct]

/-- Settles O53: no call is made, no octet taken, no slot written, so every clause holds of the empty books. -/
theorem invariantAtReset : Obligations.InvariantAtReset :=
  ⟨construct_inv, construct_inv Cfg.default⟩

/-- A RESET meets the invariant whatever octets the header and the buffer get. -/
theorem rebuild_inv (cfg : Cfg) (s : State) : Inv (rebuild cfg s) := by
  obtain ⟨-, hcalls, hreg, hagent⟩ := construct_inv cfg
  refine ⟨cursorInv_reset cfg ?_ ?_, hcalls, hreg, hagent⟩
  · exact Memory.writeBytes_wf 0 _ rfl
  · exact Memory.writeBytes_below 0 _ rfl (by simp [freeOctets])

/-! ### The bookkeeping of calls, one call apart from the others -/

@[simp] theorem Task.isRx_rx (c : Caller) (rest : Bytes) : (Task.rx c rest).isRx = true := rfl
@[simp] theorem Task.isRx_tx (job : TxJob) : (Task.tx job).isRx = false := rfl
@[simp] theorem Task.sound_rx (c : Caller) (rest : Bytes) : (Task.rx c rest).sound = true := rfl
@[simp] theorem Task.callerOf_tx (job : TxJob) : (Task.tx job).callerOf = job.caller := rfl

theorem Task.sound_tx_iff {job : TxJob} : (Task.tx job).sound = true ↔ (job.phase = .inWrite → job.todo ≠ []) := by
  cases hp : job.phase <;> simp [Task.sound, hp]

theorem Task.holdsLock_tx_iff {job : TxJob} : (Task.tx job).holdsLock = true ↔ job.phase ≠ .waiting := by
  simp [Task.holdsLock]

/-- The books of calls depend on the calls in flight, `rx_busy`, the lock, the running callback and life alone. -/
theorem CallsInv.of_eq {s u : State} (h : CallsInv s) (hi : u.inflight = s.inflight) (hb : u.rxBusy = s.rxBusy)
    (hl : u.txlock = s.txlock) (hc : u.callback = s.callback) (hf : u.life = s.life) : CallsInv u := by
  unfold CallsInv
  rwa [hi, hb, hl, hc, hf]

section
variable (pre post : List Task) (t : Task)

theorem rxCount_insert :
    ((pre ++ t :: post).filter Task.isRx).length =
      ((pre ++ post).filter Task.isRx).length + (if t.isRx = true then 1 else 0) := by
  simp only [List.filter_append, List.filter_cons, List.length_append]
  split <;> simp; omega

theorem all_sound_insert :
    (pre ++ t :: post).all Task.sound = true ↔ t.sound = true ∧ (pre ++ post).all Task.sound = true := by
  simp only [List.all_append, List.all_cons, Bool.and_eq_true]
  tauto

theorem lockHolders_insert_other (h : t.holdsLock = false) :
    lockHolders (pre ++ t :: post) = lockHolders (pre ++ post) := by
  simp [lockHolders, h]

theorem lockHolders_insert_holder (h : t.holdsLock = true) (l : TxLock) :
    lockHolders (pre ++ t :: post) = l.holders ↔ l = .held t.callerOf ∧ lockHolders (pre ++ post) = [] := by
  have hwith : lockHolders (pre ++ t :: post) = lockHolders pre ++ t.callerOf :: lockHolders post := by
    simp [lockHolders, h]
  have hwithout : lockHolders (pre ++ post) = lockHolders pre ++ lockHolders post := by simp [lockHolders]
  rw [hwith, hwithout]
  generalize lockHolders pre = before
  cases l with
  | free => simp [TxLock.holders]
  | held c => cases before <;> simp [TxLock.holders, eq_comm (a := c)]

/-- With a call in flight, nothing in flight after teardown means that the engine lives. -/
theorem tornDown_insert (l : Life) : (l = .tornDown → pre ++ t :: post = []) ↔ l = .alive := by
  cases l <;> simp

/-- An RX_CHUNK in flight: the engine lives and is busy with it, and the other calls would keep the books without it. -/
theorem callsInv_rx (c : Caller) (rest : Bytes) (s : State) :
    CallsInv (s.setInflight (pre ++ .rx c rest :: post)) ↔
      s.life = .alive ∧ s.rxBusy = true ∧ CallsInv (((s.setBusy false).setCallback none).setInflight (pre ++ post)) := by
  simp only [CallsInv, State.setInflight_inflight, rxCount_insert, all_sound_insert,
    lockHolders_insert_other pre post (.rx c rest) rfl]
  cases hl : s.life <;> cases hb : s.rxBusy <;> simp [hl, hb]

/-- A writer call that waits for the lock: the engine lives, and the other calls keep the books without it. -/
theorem callsInv_waiting {job : TxJob} (hp : job.phase = .waiting) (s : State) :
    CallsInv (s.setInflight (pre ++ .tx job :: post)) ↔ s.life = .alive ∧ CallsInv (s.setInflight (pre ++ post)) := by
  have hh : (Task.tx job).holdsLock = false := by simp [Task.holdsLock, hp]
  simp only [CallsInv, State.setInflight_inflight, rxCount_insert, all_sound_insert, lockHolders_insert_other _ _ _ hh]
  cases hl : s.life <;> cases hb : s.rxBusy <;> simp [hl, hb, Task.sound_tx_iff, hp]

/-- A writer call past the lock: the engine lives, the call holds the lock and has a string where it must, and the
other calls would keep the books with the lock free. -/
theorem callsInv_holder {job : TxJob} (hp : job.phase ≠ .waiting) (s : State) :
    CallsInv (s.setInflight (pre ++ .tx job :: post)) ↔
      s.life = .alive ∧ s.txlock = .held job.caller ∧ (Task.tx job).sound = true ∧
        CallsInv ((s.setLock .free).setInflight (pre ++ post)) := by
  have hh : (Task.tx job).holdsLock = true := Task.holdsLock_tx_iff.2 hp
  simp only [CallsInv, State.setInflight_inflight, rxCount_insert, all_sound_insert, tornDown_insert,
    lockHolders_insert_holder _ _ _ hh]
  constructor
  · rintro ⟨hrx, ⟨hlock, hfree⟩, ⟨hs, hall⟩, hcb, hlife⟩
    exact ⟨hlife, hlock, hs, hrx, hfree, hall, hcb, fun h => absurd (hlife.symm.trans h) (by decide)⟩
  · rintro ⟨hlife, hlock, hs, hrx, hfree, hall, hcb, -⟩
    exact ⟨hrx, ⟨hlock, hfree⟩, ⟨hs, hall⟩, hcb, hlife⟩

/-! ### Moves of a call in flight -/

/-- What a move of the call that stands between `pre` and `post` must answer: no fault; and the invariant, with the
call gone or with its next task in its place. -/
def MoveKeeps (s : State) : Moved → Prop
  | .blocked => True
  | .fault _ => False
  | .returned u => u.inflight = s.inflight ∧ Inv (u.setInflight (pre ++ post))
  | .goesOn t u => u.inflight = s.inflight ∧ Inv (u.setInflight (pre ++ t :: post))

/-- A decoder step of the RX_CHUNK call in flight. -/
theorem moveKeeps_onward {s : State} {c : Caller} {rest rest' : Bytes} {r : Except Fault State}
    (h : Inv (s.setInflight (pre ++ .rx c rest :: post))) (hr : StepKeeps s r) :
    MoveKeeps pre post s (onward (.rx c rest') r) := by
  obtain ⟨u, rfl, hu, hcur, hack⟩ := hr
  obtain ⟨-, hcalls, ⟨hslots, hknown⟩, hagent⟩ := h
  obtain ⟨hlife, hbusy, hothers⟩ := (callsInv_rx pre post c rest s).1 hcalls
  refine ⟨hu.inflight, hcur, (callsInv_rx pre post c rest' u).2 ⟨?_, ?_, ?_⟩, ⟨?_, ?_⟩, ?_⟩
  · exact hu.life.trans hlife
  · exact hu.rxBusy.trans hbusy
  · exact hothers.of_eq rfl rfl hu.txlock rfl hu.life
  · simpa only [State.setInflight_cfg, State.setInflight_cb, State.setInflight_opened, hu.cfg, hu.cb, hu.opened] using
      hslots
  · simpa only [State.setInflight_cfg, State.setInflight_ackReg, hu.cfg] using hack hknown
  · simpa only [HandshakeInv, State.setInflight_cfg, State.setInflight_handshake, hu.cfg, hu.handshake] using hagent

theorem rxMove_keeps {s : State} {c : Caller} {rest : Bytes} (h : Inv (s.setInflight (pre ++ .rx c rest :: post))) :
    MoveKeeps pre post s (rxMove c rest s) := by
  obtain ⟨hcur, hcalls, hreg, hagent⟩ := id h
  have hcur : CursorInv s.cfg s.cur := hcur
  rcases rxMove_cases c rest s with ⟨_, e⟩ | ⟨hcb, _, e⟩ | ⟨_, _, hst, e⟩ | ⟨_, hst, b, bs, _, e⟩ <;> rw [e]
  · refine ⟨rfl, hcur, ?_, hreg, hagent⟩
    rw [callsInv_rx] at hcalls ⊢
    exact hcalls
  · refine ⟨rfl, hcur, ?_, hreg, hagent⟩
    obtain ⟨-, -, hothers⟩ := (callsInv_rx pre post c rest s).1 hcalls
    exact hothers.of_eq rfl rfl rfl hcb rfl
  · refine moveKeeps_onward pre post h (payloadStep_keeps hcur hst _ ?_)
    simp
  · exact moveKeeps_onward pre post h (byteStep_keeps hcur b hst)

/-- The return of a writer call past the lock, whatever it made of the answers, the wire and the trace. -/
theorem moveKeeps_txReturn {s : State} {job : TxJob} (hp : job.phase ≠ .waiting)
    (h : Inv (s.setInflight (pre ++ .tx job :: post))) (v : Value) (rs : List TxReply) (bs : Bytes) (ds : List Diag) :
    MoveKeeps pre post s (.returned (txReturn job v { s with replies := rs, wire := bs, diags := ds })) := by
  obtain ⟨hcur, hcalls, hreg, hagent⟩ := h
  obtain ⟨-, -, -, hothers⟩ := (callsInv_holder pre post hp s).1 hcalls
  exact ⟨rfl, hcur, hothers, hreg, hagent⟩

theorem txMove_keeps {s : State} {job : TxJob} (h : Inv (s.setInflight (pre ++ .tx job :: post))) :
    MoveKeeps pre post s (txMove job s) := by
  obtain ⟨hcur, hcalls, hreg, hagent⟩ := id h
  have hholder (hp : job.phase ≠ .waiting) := (callsInv_holder pre post hp s).1 hcalls
  rcases txMove_cases job s with ⟨_, _, e⟩ | ⟨hp, hl, e⟩ | ⟨hp, _, e⟩ | ⟨w, ws, hp, ht, e⟩ | ⟨_, _, _, _, _, e⟩ |
    ⟨w, ws, r, rs, hp, ht, _, _, e⟩ | ⟨w, ws, r, rs, hp, ht, _, _, e⟩ <;> rw [e]
  · trivial
  · obtain ⟨hlife, hothers⟩ := (callsInv_waiting pre post hp s).1 hcalls
    refine ⟨rfl, hcur, (callsInv_holder pre post (by simp) _).2 ⟨hlife, rfl, ?_, ?_⟩, hreg, hagent⟩
    · simp [Task.sound_tx_iff]
    · exact hothers.of_eq rfl rfl hl.symm rfl rfl
  · exact moveKeeps_txReturn pre post hp h _ _ _ _
  · obtain ⟨hlife, hlock, -, hothers⟩ := hholder (by simp [hp])
    refine ⟨rfl, hcur, (callsInv_holder pre post (by simp) _).2 ⟨hlife, hlock, ?_, hothers⟩, hreg, hagent⟩
    simp [Task.sound_tx_iff, ht]
  · trivial
  · obtain ⟨hlife, hlock, -, hothers⟩ := hholder (by simp [hp])
    refine ⟨rfl, hcur, (callsInv_holder pre post (by simp) _).2 ⟨hlife, hlock, ?_, hothers⟩, hreg, hagent⟩
    simp [Task.sound_tx_iff]
  · exact moveKeeps_txReturn pre post (by simp [hp]) h _ _ _ _

theorem moveTask_keeps {s : State} (h : Inv (s.setInflight (pre ++ t :: post))) :
    MoveKeeps pre post s (moveTask t s) := by
  cases t with
  | rx c rest => exact rxMove_keeps pre post h
  | tx job => exact txMove_keeps pre post h
end

/-! ### Calls made, begun and advanced -/

/-- An answer that is no fault, and of the invariant when it is a next state. -/
def KeepsInv : Result → Prop
  | .next t => Inv t
  | .fault _ => False
  | .refused _ => True

/-- A call made whole is the call in flight before all others: what `moveTask_keeps` says of its moves. -/
theorem park_goesOn {t t' : Task} {s u : State} (h : Inv (s.park t)) (e : moveTask t s = .goesOn t' u) :
    Inv (u.park t') := by
  have hm : MoveKeeps [] s.inflight s (moveTask t s) := moveTask_keeps [] s.inflight t h
  rw [e] at hm
  obtain ⟨hin, hm⟩ := hm
  rwa [← hin] at hm

theorem park_returned {t : Task} {s u : State} (h : Inv (s.park t)) (e : moveTask t s = .returned u) : Inv u := by
  have hm : MoveKeeps [] s.inflight s (moveTask t s) := moveTask_keeps [] s.inflight t h
  rw [e] at hm
  obtain ⟨hin, hm⟩ := hm
  rwa [← hin] at hm

theorem park_no_fault {t : Task} {s : State} {f : Fault} (h : Inv (s.park t)) : moveTask t s ≠ .fault f := by
  intro e
  have hm : MoveKeeps [] s.inflight s (moveTask t s) := moveTask_keeps [] s.inflight t h
  rwa [e] at hm

theorem runTask_keepsInv (n : Nat) {t : Task} {s : State} (h : Inv (s.park t)) : KeepsInv (runTask n t s) := by
  obtain ⟨u, hu, hq | ⟨t', s', hq, rfl⟩⟩ := runTask_induct (fun t s => Inv (s.park t)) Inv
    (fun _ _ _ _ => park_goesOn) (fun _ _ _ => park_returned) (fun _ _ _ => park_no_fault) n t s h <;>
  · rw [hu]
    exact hq

/-- The call that an instruction begins can be parked. -/
theorem begunOf_inv {i : Instr} {s s' : State} {t : Task} (h : Inv s) (hb : begunOf i s = some (.begun t s')) :
    Inv (s'.park t) := by
  obtain ⟨hcur, hcalls, hreg, hagent⟩ := h
  rcases begunOf_cases hb with ⟨_, c, e⟩ | ⟨_, ch, ws, n, e⟩
  · obtain ⟨hl, hbusy, rfl, rfl⟩ := beginRx_begun e.symm
    refine ⟨hcur, (callsInv_rx [] s.inflight s.caller c (s.setBusy true)).2 ⟨hl, rfl, ?_⟩, hreg, hagent⟩
    obtain ⟨hrx, hlock, hsound, -, hlife⟩ := hcalls
    rw [hbusy] at hrx
    exact ⟨hrx, hlock, hsound, nofun, hlife⟩
  · obtain ⟨hl, rfl, rfl⟩ := beginTx_begun e.symm
    exact ⟨hcur, (callsInv_waiting [] s'.inflight rfl s').2 ⟨hl, hcalls⟩, hreg, hagent⟩

theorem runBegun_keepsInv {i : Instr} {s : State} {b : Begun} (h : Inv s) (hb : begunOf i s = some b) :
    KeepsInv (runBegun b) := by
  cases b with
  | refused q => trivial
  | begun t s' => exact runTask_keepsInv _ (begunOf_inv h hb)

theorem parkBegun_keepsInv {i : Instr} {s : State} {b : Begun} (h : Inv s) (hb : begunOf i s = some b) :
    KeepsInv (parkBegun b) := by
  cases b with
  | refused q => trivial
  | begun t s' => exact begunOf_inv h hb

/-- The slots above `N_DATA` stay empty when a backed slot is written. -/
theorem slot_ne_of_lt {cfg : Cfg} {ch : Nat} (hk : ch ≤ cfg.nData.val) {c : Fin Config.numIds} (hc : cfg.nData < c) :
    (slot ch).val ≠ c.val := by
  have hlt := cfg.nData.isLt
  have : Config.numIds = 64 := rfl
  rw [slot_val ch (by omega)]
  have : cfg.nData.val < c.val := hc
  omega

/-- TEARDOWN goes on only when no call is in flight. -/
theorem inflight_nil_of_not_busy {s : State} (h : CallsInv s) (hb : busy s = false) : s.inflight = [] := by
  obtain ⟨hrx, -⟩ := h
  simp only [busy, Bool.or_eq_false_iff, List.any_eq_false] at hb
  obtain ⟨⟨hbusy, -⟩, htx⟩ := hb
  rw [hbusy, if_neg (by decide), List.length_eq_zero_iff, List.filter_eq_nil_iff] at hrx
  refine List.eq_nil_iff_forall_not_mem.2 fun t ht => ?_
  cases t with
  | rx c rest => exact hrx _ ht rfl
  | tx job => exact htx _ ht rfl

theorem exec_keepsInv (i : Instr) {s : State} (h : Inv s) : KeepsInv (exec i s) := by
  obtain ⟨hcur, hcalls, ⟨hslots, hknown⟩, hagent⟩ := id h
  have he := exec_effect i s
  generalize exec i s = r at he
  cases he with
  | call hb hrun => exact hrun ▸ runBegun_keepsInv h hb
  | refused i q => trivial
  | outputs i es ds ps rs => exact h
  | registered ch hd hl hk =>
    refine ⟨hcur, hcalls, ⟨fun c hc => ?_, hknown⟩, hagent⟩
    have hne := slot_ne_of_lt hk hc
    simpa [State.setCb, hne] using hslots c hc
  | opened ch hl hk =>
    refine ⟨hcur, hcalls, ⟨fun c hc => ?_, hknown⟩, hagent⟩
    have hne := slot_ne_of_lt hk hc
    simpa [State.setOpened, hne] using hslots c hc
  | cleared => exact ⟨hcur, hcalls, ⟨hslots, rfl⟩, hagent⟩
  | tornDown hb =>
    have hnil := inflight_nil_of_not_busy hcalls hb
    obtain ⟨hrx, hlock, hsound, hcb, -⟩ := hcalls
    exact ⟨hcur, ⟨hrx, hlock, hsound, hcb, fun _ => hnil⟩, ⟨hslots, hknown⟩, hagent⟩
  | reset r cfg => exact rebuild_inv cfg s

theorem beginCall_keepsInv (i : Instr) {s : State} (h : Inv s) : KeepsInv (beginCall i s) := by
  unfold beginCall
  split
  · next hb => exact parkBegun_keepsInv h hb
  · exact exec_keepsInv i h

theorem advance_keepsInv (c : Caller) {s : State} (h : Inv s) : KeepsInv (advance c s) := by
  unfold advance
  split
  · exact h
  · next pre t post hsplit =>
    obtain ⟨hin, -, -⟩ := splitAt_eq_some hsplit
    have hm : MoveKeeps pre post s (moveTask t s) := moveTask_keeps pre post t (by rwa [← hin])
    split
    · exact h
    · next e => rwa [e] at hm
    · next e => rw [e] at hm; exact hm.2
    · next e => rw [e] at hm; exact hm.2

/-! ### The handshake agent -/

/-- The agent works on a known channel and has tries left: what HandshakeInv asks of it. -/
def AgentInv (cfg : Cfg) (hs : Handshake) : Prop := known cfg hs.ch = true ∧ hs.tries < max 1 hs.retryBound

theorem handshakeInv_iff {s : State} : HandshakeInv s ↔ ∀ hs, s.handshake = some hs → AgentInv s.cfg hs := by
  unfold HandshakeInv AgentInv
  cases s.handshake <;> simp

theorem afterPoll_inv {cfg : Cfg} {hs hs' : Handshake} {v : Value} (h : AgentInv cfg hs)
    (he : (afterPoll hs v).1 = some hs') : AgentInv cfg hs' := by
  obtain ⟨hk, ht⟩ := h
  unfold afterPoll at he
  repeat' split at he
  all_goals cases he
  · exact ⟨hk, ht⟩
  · exact ⟨hk, by show hs.tries + 1 < max 1 hs.retryBound; omega⟩

theorem afterMark_inv {cfg : Cfg} {hs hs' : Handshake} (he : (afterMark hs cfg.nData.val).1 = some hs') :
    AgentInv cfg hs' := by
  unfold afterMark at he
  split at he
  · cases he
  · next hlt =>
    cases he
    exact ⟨by simpa [known] using hlt, by show 0 < max 1 hs.retryBound; omega⟩

/-- A core operation that the agent makes, with the agent's next place. -/
theorem andAgent_keepsInv {i : Instr} {s : State} {next : Option Handshake} (h : Inv s) (hr : ∀ r, i ≠ .reset r)
    (hn : ∀ hs, next = some hs → AgentInv s.cfg hs) (res : Option Bool) :
    KeepsInv (andAgent (exec i s) next res) := by
  have hk := exec_keepsInv i h
  have hcfg := fun t ht => (registryHasOneWriter i s t ht hr).1
  cases e : exec i s with
  | next t =>
    rw [e] at hk
    obtain ⟨hcur, hcalls, hreg, -⟩ := hk
    exact ⟨hcur, hcalls, hreg, handshakeInv_iff.2 fun hs hhs => hcfg t e ▸ hn hs hhs⟩
  | fault f => rwa [e] at hk
  | refused q => trivial

theorem handshakeMove_keepsInv {hs : Handshake} {s : State} (h : Inv s) (ha : AgentInv s.cfg hs) :
    KeepsInv (handshakeMove hs s) := by
  have hplace : ∀ p, ∀ hs', some { hs with phase := p } = some hs' → AgentInv s.cfg hs' := by
    rintro p _ ⟨⟩
    exact ha
  have hc : Inv (s.setCaller hs.caller) := h
  obtain ⟨hcur, hcalls, hreg, -⟩ := id hc
  unfold handshakeMove
  dsimp only
  split
  · exact andAgent_keepsInv hc (by simp) (hplace _) _
  · exact andAgent_keepsInv hc (by simp) (hplace _) _
  · split
    · exact hc
    · split
      · exact ⟨hcur, hcalls, hreg, rfl⟩
      · refine ⟨hcur, hcalls, hreg, handshakeInv_iff.2 ?_⟩
        rintro _ ⟨⟩
        exact ⟨ha.1, by show 0 < max 1 hs.retryBound; omega⟩
  · exact andAgent_keepsInv hc (by simp) (fun _ => afterPoll_inv ha) _
  · exact andAgent_keepsInv hc (by simp) (fun _ => afterMark_inv) _

/-! ### Steps -/

theorem perform_keepsInv (m : Move) {s : State} (h : Inv s) : KeepsInv (perform m s) := by
  obtain ⟨hcur, hcalls, hreg, hagent⟩ := id h
  cases m with
  | arrive c chunk => exact exec_keepsInv _ (s := s.setCaller c) h
  | call c i => exact exec_keepsInv i (s := s.setCaller c) h
  | begin c i => exact beginCall_keepsInv i (s := s.setCaller c) h
  | advance c => exact advance_keepsInv c h
  | reply r => exact h
  | openBegin c sabmCtrl retryBound =>
    refine ⟨hcur, hcalls, hreg, handshakeInv_iff.2 ?_⟩
    rintro _ ⟨⟩
    exact ⟨by simp [known], by show 0 < max 1 retryBound; omega⟩
  | openTick =>
    show KeepsInv (openTick s)
    unfold openTick
    split
    · exact h
    · next hs he => exact handshakeMove_keepsInv h (handshakeInv_iff.1 hagent hs he)

/-- One step from the invariant: no fault, and a next state is of the invariant. -/
theorem step_keepsInv {s : State} (h : Inv s) : KeepsInv (step s) := by
  unfold step
  split
  · exact h
  · next m ms _ => exact perform_keepsInv m (s := { s with agenda := ms }) h

/-- Settles O54: every move keeps the invariant. -/
theorem invariantIsKept : Obligations.InvariantIsKept := by
  unfold Obligations.InvariantIsKept
  intro s t h ht
  have hk := step_keepsInv h
  rwa [ht] at hk

theorem safe_of_inv (n : Nat) {s : State} (h : Inv s) : Safe n s := by
  induction n generalizing s with
  | zero => trivial
  | succ n ih =>
    have hk := step_keepsInv h
    unfold Safe
    cases e : step s with
    | next t =>
      rw [e] at hk
      exact ih hk
    | fault f => rwa [e] at hk
    | refused q => trivial

/-- Settles O55: no move faults from the invariant, and the invariant is kept along a run. -/
theorem noStepFaults : Obligations.NoStepFaults := by
  refine ⟨fun s f h hf => ?_, fun n s h => safe_of_inv n h⟩
  have hk := step_keepsInv h
  rwa [hf] at hk

end Sys2Proof.Machine
end

section
/-! PROOFS. The writer's side of the machine (20_memory.md R66, R73; 41_writer.md R130 to R136): what the lock keeps away
from the wire; the moves of a writer call; a call in flight moves as the same call made whole does. -/

namespace Sys2Proof.Machine

/-! ### Who touches the lock and the wire -/

/-- The writer's side of the state: the lock, the outbound stream and the TxWrite calls (20_memory.md R60, R73). -/
def State.transmitter (s : State) : TxLock × Bytes × List Bytes := (s.txlock, s.wire, txWrites s.portCalls)

theorem State.transmitter_eq_iff {s t : State} :
    t.transmitter = s.transmitter ↔
      t.txlock = s.txlock ∧ t.wire = s.wire ∧ txWrites t.portCalls = txWrites s.portCalls := by
  simp [State.transmitter]

theorem Untouched.transmitter {s t : State} (h : Untouched s t) : t.transmitter = s.transmitter := by
  rw [State.transmitter, h.txlock, h.wire, h.portCalls]
  rfl

/-- Only a TxWrite is a write among the calls on the transport. -/
theorem transmitter_portCall {s : State} {p : PortCall} (h : ∀ bs, p ≠ .write bs) :
    (s.portCall p).transmitter = s.transmitter := by
  cases p with
  | write bs => exact absurd rfl (h bs)
  | start | stop => simp [State.transmitter, txWrites]

/-- A decoder step as a move leaves the writer's side. -/
theorem onward_transmitter {s u : State} {t : Task} {r : Except Fault State} (hr : StepLeaves s r)
    (h : (onward t r).after = some u) : u.transmitter = s.transmitter := by
  cases r with
  | error f => cases h
  | ok v =>
    cases h
    exact (hr u rfl).transmitter

theorem rxMove_transmitter {c : Caller} {rest : Bytes} {s u : State} (h : (rxMove c rest s).after = some u) :
    u.transmitter = s.transmitter := by
  rcases rxMove_cases c rest s with ⟨_, e⟩ | ⟨_, _, e⟩ | ⟨_, _, _, e⟩ | ⟨_, _, b, bs, _, e⟩ <;> rw [e] at h
  · cases h; rfl
  · cases h; rfl
  · exact onward_transmitter (payloadStep_leaves _ s) h
  · exact onward_transmitter (byteStep_leaves b s) h

/-- An RX_CHUNK call stays one from move to move. -/
theorem moveTask_isRx {t t' : Task} {s s' : State} (ht : t.isRx = true) (h : moveTask t s = .goesOn t' s') :
    t'.isRx = true := by
  have onward_isRx : ∀ {c rest r}, onward (.rx c rest) r = .goesOn t' s' → t'.isRx = true := by
    intro c rest r e
    cases r <;> cases e
    rfl
  cases t with
  | tx job => cases ht
  | rx c rest =>
    simp only [moveTask] at h
    rcases rxMove_cases c rest s with ⟨_, e⟩ | ⟨_, _, e⟩ | ⟨_, _, _, e⟩ | ⟨_, _, b, bs, _, e⟩ <;> rw [e] at h
    · cases h; rfl
    · cases h
    · exact onward_isRx h
    · exact onward_isRx h

theorem runTask_transmitter {n : Nat} {t : Task} {s u : State} (ht : t.isRx = true) (h : runTask n t s = .next u) :
    u.transmitter = s.transmitter := by
  refine runTask_view (K := fun t => t.isRx = true) (fun _ _ => rfl) (fun t s u ht h => ?_)
    (fun _ _ _ _ => moveTask_isRx) ht h
  cases t with
  | rx c rest => exact rxMove_transmitter h
  | tx job => cases ht

/-- A writer call waits while the lock is held, whoever holds it. -/
theorem moveTask_waiting_held {job : TxJob} {s : State} {c : Caller} (hp : job.phase = .waiting)
    (hl : s.txlock = .held c) : moveTask (.tx job) s = .blocked := by
  simp [moveTask, txMove, hp, hl]

/-- A call that does not hold the lock makes no move on the writer's side while another does. -/
theorem moveTask_transmitter {t : Task} {s u : State} {c : Caller} (hl : s.txlock = .held c)
    (ht : t.holdsLock = false) (h : (moveTask t s).after = some u) : u.transmitter = s.transmitter := by
  cases t with
  | rx d rest => exact rxMove_transmitter h
  | tx job =>
    have hp : job.phase = .waiting := by simpa [Task.holdsLock] using ht
    rw [moveTask_waiting_held hp hl] at h
    cases h

/-- A call that must wait at once stands in flight, and nothing else changes. -/
theorem runTask_blocked {t : Task} {s : State} (h : moveTask t s = .blocked) (n : Nat) :
    runTask n t s = .next (s.park t) := by
  cases n with
  | zero => rfl
  | succ n => rw [runTask, h]

/-- What an answer makes of the writer's side of `s`: nothing. -/
def KeepsTransmitter (s : State) (r : Result) : Prop := ∀ t, r = .next t → t.transmitter = s.transmitter

theorem KeepsTransmitter.next {s t : State} (h : t.transmitter = s.transmitter) : KeepsTransmitter s (.next t) := by
  rintro _ ⟨⟩
  exact h

theorem KeepsTransmitter.refused (s : State) (q : Refusal) : KeepsTransmitter s (.refused q) := by rintro _ ⟨⟩

theorem KeepsTransmitter.fault (s : State) (f : Fault) : KeepsTransmitter s (.fault f) := by rintro _ ⟨⟩

theorem KeepsTransmitter.whenAlive {s : State} {k : Result} (h : KeepsTransmitter s k) :
    KeepsTransmitter s (whenAlive s k) := fun t e => h t (whenAlive_next e).2

theorem KeepsTransmitter.onChannel {s : State} {ch : Nat} {k : Result} (h : KeepsTransmitter s k) :
    KeepsTransmitter s (onChannel ch s k) := fun t e => h t (onChannel_next e).2.2

theorem KeepsTransmitter.andAgent {s : State} {r : Result} (h : KeepsTransmitter s r) (hs : Option Handshake)
    (res : Option Bool) : KeepsTransmitter s (andAgent r hs res) := by
  cases r with
  | next u => exact .next (h u rfl)
  | fault f => exact .fault s f
  | refused q => exact .refused s q

/-- An RX_CHUNK call runs without the writer's side; a writer call begun while the lock is held waits. -/
theorem runBegun_keepsTransmitter {i : Instr} {s : State} {c : Caller} {b : Begun} (hl : s.txlock = .held c)
    (hb : begunOf i s = some b) : KeepsTransmitter s (runBegun b) := by
  cases b with
  | refused q => exact .refused s q
  | begun t s' =>
    rcases begunOf_cases hb with ⟨_, chunk, e⟩ | ⟨_, ch, ws, n, e⟩
    · obtain ⟨-, -, rfl, rfl⟩ := beginRx_begun e.symm
      exact fun u hu => runTask_transmitter (s := s.setBusy true) rfl hu
    · obtain ⟨-, rfl, rfl⟩ := beginTx_begun e.symm
      rw [runBegun, runTask_blocked (moveTask_waiting_held rfl hl)]
      exact .next rfl

theorem parkBegun_keepsTransmitter {i : Instr} {s : State} {b : Begun} (hb : begunOf i s = some b) :
    KeepsTransmitter s (parkBegun b) := by
  cases b with
  | refused q => exact .refused s q
  | begun t s' =>
    rcases begunOf_cases hb with ⟨_, chunk, e⟩ | ⟨_, ch, ws, n, e⟩
    · obtain ⟨-, -, -, rfl⟩ := beginRx_begun e.symm
      exact .next rfl
    · obtain ⟨-, -, rfl⟩ := beginTx_begun e.symm
      exact .next rfl

/-- A call that can be in flight is made whole by running it from its beginning. -/
theorem exec_of_begunOf {i : Instr} {s : State} {b : Begun} (h : begunOf i s = some b) : exec i s = runBegun b := by
  cases i <;> cases h <;> rfl

/-- A call that returns in one move and is no RESET makes no TxWrite and leaves the lock. -/
theorem exec_keepsTransmitter_of_not_begun {i : Instr} {s : State} (hb : begunOf i s = none)
    (hr : ∀ r, i ≠ .reset r) : KeepsTransmitter s (exec i s) := by
  cases i with
  | rr _ _ | ui _ _ | rnr _ _ | rej _ _ | dm _ _ | sabm _ _ | disc _ _ | ua _ _ | uih _ _ | ack _ | anyOtherControl _ _
  | rxChunk _ | write _ _ | sendCtrl _ _ _ => cases hb
  | crc8 _ | fcs _ _ _ | encodeTrailer _ | decodeHeader _ | fcsCheck _ _ _ _ | ackClear => exact .whenAlive (.next rfl)
  | encodeHeader ch kind pf n =>
    refine .whenAlive ?_
    split
    · exact .next rfl
    · exact .refused s _
  | registerCallback ch h => exact .onChannel (.next rfl)
  | dispatch ch bs => exact .whenAlive (.next (untouched_dispatch ch bs s).transmitter)
  | setOpen ch => exact .onChannel (.next rfl)
  | getOpen ch => exact .onChannel (.next rfl)
  | ackRead => exact .next rfl
  | start | stop => exact .whenAlive (.next (transmitter_portCall nofun))
  | teardown =>
    refine .whenAlive ?_
    split
    · exact .refused s _
    · exact .next rfl
  | reset r => exact absurd rfl (hr r)

theorem exec_keepsTransmitter {i : Instr} {s : State} {c : Caller} (hl : s.txlock = .held c)
    (hr : ∀ r, i ≠ .reset r) : KeepsTransmitter s (exec i s) := by
  cases hb : begunOf i s with
  | none => exact exec_keepsTransmitter_of_not_begun hb hr
  | some b => exact exec_of_begunOf hb ▸ runBegun_keepsTransmitter hl hb

theorem beginCall_keepsTransmitter {i : Instr} {s : State} (hr : ∀ r, i ≠ .reset r) :
    KeepsTransmitter s (beginCall i s) := by
  unfold beginCall
  split
  · next hb => exact parkBegun_keepsTransmitter hb
  · next hb => exact exec_keepsTransmitter_of_not_begun hb hr

/-- A call in flight whose caller is not the holder does not hold the lock: the books name one holder. -/
theorem not_holdsLock_of_other_caller {s : State} {c : Caller} {t : Task} (h : CallsInv s) (hl : s.txlock = .held c)
    (ht : t ∈ s.inflight) (hc : t.callerOf ≠ c) : t.holdsLock = false := by
  obtain ⟨-, hholders, -⟩ := h
  rw [hl] at hholders
  by_contra hh
  have hmem : t.callerOf ∈ lockHolders s.inflight :=
    List.mem_map_of_mem (List.mem_filter.2 ⟨ht, by simpa using hh⟩)
  rw [hholders] at hmem
  exact hc (List.mem_singleton.1 hmem)

theorem advance_keepsTransmitter {s : State} {c d : Caller} (h : CallsInv s) (hl : s.txlock = .held c) (hd : d ≠ c) :
    KeepsTransmitter s (advance d s) := by
  unfold advance
  split
  · exact .next rfl
  · next pre t post hsplit =>
    obtain ⟨hin, rfl, -⟩ := splitAt_eq_some hsplit
    have hm := fun u => moveTask_transmitter (u := u) hl (not_holdsLock_of_other_caller h hl (by simp [hin]) hd)
    split
    · exact .next rfl
    · exact .fault s _
    · next u e => exact .next (hm u (by rw [e]; rfl))
    · next t' u e => exact .next (hm u (by rw [e]; rfl))

theorem openTick_keepsTransmitter {s : State} {c : Caller} (hl : s.txlock = .held c) :
    KeepsTransmitter s (openTick s) := by
  unfold openTick
  split
  · exact .next rfl
  · next hs _ =>
    have hexec : ∀ i next res, (∀ r, i ≠ .reset r) →
        KeepsTransmitter s (andAgent (exec i (s.setCaller hs.caller)) next res) :=
      fun i next res hr => (exec_keepsTransmitter (s := s.setCaller hs.caller) hl hr).andAgent next res
    unfold handshakeMove
    dsimp only
    split
    · exact hexec _ _ _ nofun
    · exact hexec _ _ _ nofun
    · split
      · exact .next rfl
      · split <;> exact .next rfl
    · exact hexec _ _ _ nofun
    · exact hexec _ _ _ nofun

/-- While `c` holds the lock, no move but the advance of `c` and a RESET touches the writer's side. -/
theorem perform_keepsTransmitter {m : Move} {s : State} {c : Caller} (h : CallsInv s) (hl : s.txlock = .held c)
    (hm : m ≠ .advance c) (hr : m.resets = false) : KeepsTransmitter s (perform m s) := by
  cases m with
  | arrive d chunk =>
    exact exec_keepsTransmitter (s := s.setCaller d) hl (ne_reset_of_inbound (inbound_fetch chunk))
  | call d i =>
    refine exec_keepsTransmitter (s := s.setCaller d) hl ?_
    rintro r rfl
    cases hr
  | begin d i =>
    refine beginCall_keepsTransmitter (s := s.setCaller d) ?_
    rintro r rfl
    cases hr
  | advance d => exact advance_keepsTransmitter h hl (by rintro rfl; exact hm rfl)
  | reply r => exact .next rfl
  | openBegin d sabmCtrl retryBound => exact .next rfl
  | openTick => exact openTick_keepsTransmitter hl

/-- Settles O24: by cases on the move; in a move of another caller's call, the books leave that call no hold on the
lock. -/
theorem lockExcludesOtherWriters : Obligations.LockExcludesOtherWriters := by
  unfold Obligations.LockExcludesOtherWriters
  intro s t c m ms hinv hl hag hstep hm hr
  obtain ⟨-, hcalls, -, -⟩ := hinv
  unfold step at hstep
  rw [hag] at hstep
  have hkeep : t.transmitter = s.transmitter :=
    perform_keepsTransmitter (s := { s with agenda := ms }) hcalls hl hm hr t hstep
  obtain ⟨hlock, hwire, hwrites⟩ := State.transmitter_eq_iff.1 hkeep
  exact ⟨hlock.trans hl, hwire, hwrites⟩

/-! ### The moves of a writer call -/

section
variable {s : State} (c : Caller) (w : Bytes) (ws : List Bytes) (n : Nat) {r : TxReply} {rs : List TxReply}

theorem moveTask_acquire (hl : s.txlock = .free) :
    moveTask (.tx ⟨c, .waiting, ws, n⟩) s = .goesOn (.tx ⟨c, .ready, ws, n⟩) (s.setLock (.held c)) := by
  simp [moveTask, txMove, hl]

theorem moveTask_txWrite :
    moveTask (.tx ⟨c, .ready, w :: ws, n⟩) s = .goesOn (.tx ⟨c, .inWrite, w :: ws, n⟩) (s.portCall (.write w)) := rfl

theorem moveTask_done :
    moveTask (.tx ⟨c, .ready, [], n⟩) s = .returned (txReturn ⟨c, .ready, [], n⟩ (.count n) s) := rfl

theorem moveTask_unanswered (hr : s.replies = []) : moveTask (.tx ⟨c, .inWrite, w :: ws, n⟩) s = .blocked := by
  simp [moveTask, txMove, hr]

theorem moveTask_accepted (hr : s.replies = r :: rs) (hok : r.ret = some w.length) :
    moveTask (.tx ⟨c, .inWrite, w :: ws, n⟩) s =
      .goesOn (.tx ⟨c, .ready, ws, n⟩) ((s.setReplies rs).onWire w) := by
  simp [moveTask, txMove, hr, hok]

theorem moveTask_failed (hr : s.replies = r :: rs) (hbad : r.ret ≠ some w.length) :
    moveTask (.tx ⟨c, .inWrite, w :: ws, n⟩) s = .returned { s with
      replies := rs, wire := s.wire ++ w.take r.put, diags := s.diags ++ [.txIoError], txlock := .free
      results := s.results ++ [⟨c, .ioError⟩] } := by
  simp [moveTask, txMove, hr, hbad, txReturn, State.setReplies, State.onWire, State.note, State.setLock, State.retTo]
end

/-! ### Advances -/

/-- The innermost call of a caller is found by what stands before it. -/
theorem splitAt_append {t : Task} {pre : List Task} (hpre : ∀ u ∈ pre, u.callerOf ≠ t.callerOf) (post : List Task) :
    splitAt t.callerOf (pre ++ t :: post) = some (pre, t, post) := by
  induction pre with
  | nil => simp [splitAt]
  | cons u pre ih =>
    obtain ⟨hu, hrest⟩ := List.forall_mem_cons.1 hpre
    simp [splitAt, hu, ih hrest]

section
variable {s : State} {t : Task} {pre post : List Task} (hin : s.inflight = pre ++ t :: post)
  (hpre : ∀ u ∈ pre, u.callerOf ≠ t.callerOf)
include hin hpre

theorem advance_blocked (h : moveTask t s = .blocked) : advance t.callerOf s = .next s := by
  simp [advance, hin, splitAt_append hpre, h]

theorem advance_returned {u : State} (h : moveTask t s = .returned u) :
    advance t.callerOf s = .next (u.setInflight (pre ++ post)) := by
  simp [advance, hin, splitAt_append hpre, h]

theorem advance_goesOn {t' : Task} {u : State} (h : moveTask t s = .goesOn t' u) :
    advance t.callerOf s = .next (u.setInflight (pre ++ t' :: post)) := by
  simp [advance, hin, splitAt_append hpre, h]
end

/-- A writer operation on an engine alive and a known channel is the run of its call, which begins waiting. -/
theorem exec_writerCall {i : Instr} {ch n : Nat} {ws : List Bytes} {s : State} (hi : WriterCall i ch ws n)
    (hl : s.life = .alive) (hc : ch ≤ s.cfg.nData.val) :
    exec i s = runTask (2 * ws.length + 3) (.tx ⟨s.caller, .waiting, ws, n⟩) s := by
  have hbegin : ∀ ws n, beginTx ch ws n s = .begun (.tx ⟨s.caller, .waiting, ws, n⟩) s := by
    intro ws n
    simp [beginTx, hl, known, hc]
  cases hi with
  | write p => exact congrArg runBegun (hbegin _ _)
  | sendCtrl kind pf => exact congrArg runBegun (hbegin _ _)

/-- Settles O22: each clause is one branch of the move of a writer call. -/
theorem writerWaitsForTheLock : Obligations.WriterWaitsForTheLock := by
  refine ⟨fun i ch n ws s c hi hl hc hlock => ?_, fun s job pre post hin hpre => ?_⟩
  · rw [exec_writerCall hi hl hc]
    exact runTask_blocked (moveTask_waiting_held rfl hlock) _
  obtain ⟨c, phase, todo, total⟩ := job
  refine ⟨?_, ?_, ?_, ?_, ?_, ?_, ?_⟩
  · intro d hp hl
    exact advance_blocked hin hpre (moveTask_waiting_held hp hl)
  · rintro rfl hl
    exact (advance_goesOn hin hpre (moveTask_acquire c todo total hl) :)
  · rintro w ws rfl rfl
    exact (advance_goesOn hin hpre (moveTask_txWrite c w ws total) :)
  · rintro w ws rfl rfl hr
    exact advance_blocked hin hpre (moveTask_unanswered c w ws total hr)
  · rintro w ws r rs rfl rfl hr hok
    exact (advance_goesOn hin hpre (moveTask_accepted c w ws total hr hok) :)
  · rintro w ws r rs rfl rfl hr hbad
    exact (advance_returned hin hpre (moveTask_failed c w ws total hr hbad) :)
  · rintro rfl rfl
    exact (advance_returned hin hpre (moveTask_done c total) :)

/-! ### A writer call made whole -/

theorem runTask_goesOn {t t' : Task} {s s' : State} (h : moveTask t s = .goesOn t' s') (n : Nat) :
    runTask (n + 1) t s = runTask n t' s' := by
  rw [runTask, h]

/-- The state after the strings `ws` have been accepted, with the answers `rest` left. -/
def State.sentAll (s : State) (ws : List Bytes) (rest : List TxReply) : State :=
  { s with portCalls := s.portCalls ++ ws.map .write, wire := s.wire ++ ws.flatten, replies := rest }

/-- A writer call that holds the lock makes two moves for each string that the transport accepts. -/
theorem runTask_sentAll {pre : List Bytes} {rs rest : List TxReply} {s : State} (hr : s.replies = rs ++ rest)
    (hok : Accepts rs pre) (n : Nat) (c : Caller) (ws : List Bytes) (total : Nat) :
    runTask (n + 2 * pre.length) (.tx ⟨c, .ready, pre ++ ws, total⟩) s =
      runTask n (.tx ⟨c, .ready, ws, total⟩) (s.sentAll pre rest) := by
  induction pre generalizing s rs with
  | nil =>
    obtain rfl : rs = [] := by simpa [Accepts] using hok
    obtain rfl : s.replies = rest := hr
    simp [State.sentAll]
  | cons w pre ih =>
    cases rs with
    | nil => simp [Accepts] at hok
    | cons r rs =>
      obtain ⟨hw, hok⟩ : r.ret = some w.length ∧ Accepts rs pre := by simpa [Accepts] using hok
      have hstep : runTask (n + 2 * (w :: pre).length) (.tx ⟨c, .ready, w :: (pre ++ ws), total⟩) s =
          runTask (n + 2 * pre.length) (.tx ⟨c, .ready, pre ++ ws, total⟩)
            (((s.portCall (.write w)).setReplies (rs ++ rest)).onWire w) := by
        rw [List.length_cons, Nat.mul_succ, ← Nat.add_assoc, runTask_goesOn (moveTask_txWrite ..),
          runTask_goesOn (moveTask_accepted (s := s.portCall (.write w)) c w _ total (rs := rs ++ rest) hr hw)]
      rw [List.cons_append, hstep, ih rfl hok]
      simp [State.sentAll, State.portCall, State.onWire, State.setReplies]

/-- Settles O23: the lock is acquired, the accepted strings are sent, and the next TxWrite finds no answer. -/
theorem writerHangsInTxWrite : Obligations.WriterHangsInTxWrite := by
  unfold Obligations.WriterHangsInTxWrite
  intro i ch n pre post w s hi hl hc hfree hok
  have hfuel : 2 * (pre ++ w :: post).length + 3 = (2 * post.length + 3) + 1 + 2 * pre.length + 1 := by
    simp only [List.length_append, List.length_cons]
    omega
  rw [exec_writerCall hi hl hc, hfuel, runTask_goesOn (moveTask_acquire _ _ _ hfree),
    runTask_sentAll (s := s.setLock (.held s.caller)) (List.append_nil s.replies).symm hok,
    runTask_goesOn (moveTask_txWrite ..), runTask_blocked (moveTask_unanswered _ _ _ _ rfl)]
  simp [State.sentAll, State.portCall, State.setLock, State.park, State.setInflight]

/-! ### A move does not see the calls in flight -/

/-- An answer of a move with the calls in flight replaced by `ts`. -/
def Moved.withInflight (ts : List Task) : Moved → Moved
  | .blocked => .blocked
  | .fault f => .fault f
  | .returned s => .returned (s.setInflight ts)
  | .goesOn t s => .goesOn t (s.setInflight ts)

/-- A decoder step that gives the same whatever calls are in flight. -/
def InflightBlind (step : State → Except Fault State) : Prop :=
  ∀ s ts, step (s.setInflight ts) = (step s).map (·.setInflight ts)

/-- A choice that is made alike before and after `g` commutes with `g`. -/
theorem ite_eq_apply_ite {α β : Type} {p q : Prop} [Decidable p] [Decidable q] (g : α → β) {a b : α} {a' b' : β}
    (hpq : p ↔ q) (ha : a' = g a) (hb : b' = g b) : (if p then a' else b') = g (if q then a else b) := by
  by_cases h : q
  · rw [if_pos h, if_pos (hpq.2 h), ha]
  · rw [if_neg h, if_neg (mt hpq.1 h), hb]

section
variable {p q : Prop} [Decidable p] [Decidable q] {ts : List Task} (hpq : p ↔ q)
include hpq

theorem ite_setInflight {a b a' b' : State} (ha : a' = a.setInflight ts) (hb : b' = b.setInflight ts) :
    (if p then a' else b') = (if q then a else b).setInflight ts :=
  ite_eq_apply_ite (fun s : State => s.setInflight ts) hpq ha hb

theorem ite_map_setInflight {a b a' b' : Except Fault State} (ha : a' = a.map (·.setInflight ts))
    (hb : b' = b.map (·.setInflight ts)) : (if p then a' else b') = (if q then a else b).map (·.setInflight ts) :=
  ite_eq_apply_ite (Except.map fun s : State => s.setInflight ts) hpq ha hb
end

theorem dispatch_setInflight (ch : Nat) (bs : Bytes) (s : State) (ts : List Task) :
    dispatch ch bs (s.setInflight ts) = (dispatch ch bs s).setInflight ts := by
  refine ite_setInflight Iff.rfl ?_ rfl
  have hcb : (s.setInflight ts).cbAt ch = s.cbAt ch := rfl
  rw [hcb]
  cases s.cbAt ch <;> rfl

theorem headerDone_setInflight (s : State) (ts : List Task) :
    headerDone (s.setInflight ts) = (headerDone s).setInflight ts :=
  ite_setInflight Iff.rfl rfl rfl

theorem route_setInflight (s : State) (ts : List Task) : route (s.setInflight ts) = route s := rfl

theorem inflightBlind_acceptFrame : InflightBlind acceptFrame := by
  intro s ts
  unfold acceptFrame
  rw [route_setInflight]
  cases route s with
  | ack | drop => rfl
  | data =>
    refine ite_map_setInflight Iff.rfl ?_ rfl
    simp only [State.setInflight_cur, dispatch_setInflight]
    cases memRead s.cur.rbuf s.cur.rlen <;> rfl

theorem inflightBlind_frameEnd : InflightBlind frameEnd := fun s ts =>
  ite_map_setInflight Iff.rfl
    (ite_map_setInflight Iff.rfl rfl (inflightBlind_acceptFrame s ts)) rfl

theorem inflightBlind_takePayload (bs : Bytes) : InflightBlind (takePayload bs) := by
  intro s ts
  refine ite_map_setInflight Iff.rfl ?_ rfl
  refine ite_map_setInflight Iff.rfl ?_ ?_
  · rw [State.setInflight_cur]
    cases memWrite s.cur.rbuf s.cur.rlen bs <;> rfl
  · exact congrArg Except.ok (dispatch_setInflight s.cur.ch bs s ts)

theorem inflightBlind_payloadStep (bs : Bytes) : InflightBlind (payloadStep bs) := by
  intro s ts
  rw [payloadStep, payloadStep, inflightBlind_takePayload]
  cases takePayload bs s <;> rfl

theorem inflightBlind_storeHdr (b : Byte) {k : State → Except Fault State} (hk : InflightBlind k) :
    InflightBlind fun s => storeHdr b s k := by
  intro s ts
  simp only [storeHdr, State.setInflight_cur]
  cases s.cur.hdr.put s.cur.cnt b with
  | none => rfl
  | some hdr => exact hk (s.setCur _) ts

theorem inflightBlind_byteStep (b : Byte) : InflightBlind (byteStep b) := by
  intro s ts
  unfold byteStep
  rw [State.setInflight_cur]
  cases s.cur.st with
  | init | recover => exact ite_map_setInflight Iff.rfl rfl rfl
  | header =>
    refine ite_map_setInflight Iff.rfl rfl (inflightBlind_storeHdr b (fun u ts => ?_) s ts)
    exact congrArg Except.ok (ite_setInflight Iff.rfl (headerDone_setInflight u ts) rfl)
  | payload => exact inflightBlind_payloadStep [b] s ts
  | footer =>
    refine inflightBlind_storeHdr b (fun u ts => ?_) s ts
    exact ite_map_setInflight Iff.rfl (inflightBlind_frameEnd u ts) rfl

theorem onward_map_setInflight (t : Task) (r : Except Fault State) (ts : List Task) :
    onward t (r.map (·.setInflight ts)) = (onward t r).withInflight ts := by
  cases r <;> rfl

theorem rxMove_setInflight (c : Caller) (rest : Bytes) (s : State) (ts : List Task) :
    rxMove c rest (s.setInflight ts) = (rxMove c rest s).withInflight ts := by
  simp only [rxMove, State.setInflight_callback, State.setInflight_cur, inflightBlind_payloadStep _ s ts,
    inflightBlind_byteStep _ s ts, onward_map_setInflight]
  split
  · rfl
  · split
    · rfl
    · split <;> rfl

theorem txMove_setInflight (job : TxJob) (s : State) (ts : List Task) :
    txMove job (s.setInflight ts) = (txMove job s).withInflight ts := by
  simp only [txMove, State.setInflight_txlock, State.setInflight_replies]
  split
  · split <;> rfl
  · split <;> rfl
  · split
    · rfl
    · rfl
    · split <;> rfl

theorem moveTask_setInflight (t : Task) (s : State) (ts : List Task) :
    moveTask t (s.setInflight ts) = (moveTask t s).withInflight ts := by
  cases t with
  | rx c rest => exact rxMove_setInflight c rest s ts
  | tx job => exact txMove_setInflight job s ts

/-! ### A call in flight, moved until it returns or must wait -/

theorem moveTask_park (t t' : Task) (s : State) :
    moveTask t (s.park t') = (moveTask t s).withInflight (t' :: s.inflight) := moveTask_setInflight t s _

theorem moveTask_goesOn_inflight {t t' : Task} {s s' : State} (h : moveTask t s = .goesOn t' s') :
    s'.inflight = s.inflight := by
  have hself := moveTask_setInflight t s s.inflight
  rw [show s.setInflight s.inflight = s from rfl, h] at hself
  injection hself with _ hs
  rw [hs]
  rfl

/-- Running a call is parking it and moving it as its caller's innermost call. -/
theorem runTask_eq_advances {n : Nat} {t : Task} {s u : State} (h : runTask n t s = .next u) :
    ∃ k, advances t.callerOf k (s.park t) = .next u := by
  induction n generalizing t s with
  | zero => exact ⟨0, h⟩
  | succ n ih =>
    have hpark := moveTask_park t t s
    have hin : (s.park t).inflight = [] ++ t :: s.inflight := rfl
    obtain ⟨hret, hgo⟩ := moveTask_inflight t s
    unfold runTask at h
    cases e : moveTask t s with
    | blocked =>
      rw [e] at h
      exact ⟨0, h⟩
    | fault f =>
      rw [e] at h
      cases h
    | returned s' =>
      rw [e] at h hpark
      cases h
      have hadv := advance_returned hin nofun hpark
      refine ⟨1, ?_⟩
      simp only [advances, hadv]
      rw [List.nil_append, ← hret u e]
      rfl
    | goesOn t' s' =>
      rw [e] at h hpark
      obtain ⟨k, hk⟩ := ih h
      have hadv := advance_goesOn hin nofun hpark
      refine ⟨k + 1, ?_⟩
      simp only [advances, hadv]
      rw [List.nil_append, ← moveTask_goesOn_inflight e, ← hgo t' s' e]
      exact hk

/-- A call is begun as its caller's. -/
theorem begunOf_callerOf {i : Instr} {s s' : State} {t : Task} (h : begunOf i s = some (.begun t s')) :
    t.callerOf = s.caller := by
  rcases begunOf_cases h with ⟨_, c, e⟩ | ⟨_, ch, ws, n, e⟩
  · obtain ⟨-, -, rfl, -⟩ := beginRx_begun e.symm
    rfl
  · obtain ⟨-, rfl, -⟩ := beginTx_begun e.symm
    rfl

/-- Settles O26: by induction on the moves of the run, each of which is an advance of the parked call. -/
theorem callRunsAsItsMoves : Obligations.CallRunsAsItsMoves := by
  unfold Obligations.CallRunsAsItsMoves
  intro i s t hsome hexec
  obtain ⟨b, hb⟩ := Option.isSome_iff_exists.1 hsome
  rw [exec_of_begunOf hb] at hexec
  cases b with
  | refused q => cases hexec
  | begun task s' =>
    obtain ⟨n, hn⟩ := runTask_eq_advances hexec
    refine ⟨n, s'.park task, ?_, begunOf_callerOf hb ▸ hn⟩
    rw [beginCall, hb]
    rfl

end Sys2Proof.Machine
end

section
/-! PROOFS. The wire format (30_encoding.md R80 to R90): the control octet's table (R82, R87); which row a control
octet and a frame are read as; the decoder and the encoder are inverse to each other. -/

namespace Sys2Proof

/-! ### The control octet (R82, R87) -/

/-- An octet names a kind exactly when it has the kind's code under the mask. -/
theorem kindOf_eq_some_iff {c : Byte} {k : FrameKind} : kindOf c = some k ↔ c &&& kindMask = k.code := by
  constructor
  · intro h
    unfold kindOf at h
    have hcode := List.find?_some h
    exact (eq_of_beq hcode).symm
  · intro h
    unfold kindOf
    rw [h]
    cases k <;> rfl

/-- Settles O4: the codes are read off the table; an octet under the mask is found in it at its own kind only. -/
theorem controlOctetsNameKinds : Obligations.ControlOctetsNameKinds := by
  unfold Obligations.ControlOctetsNameKinds
  refine ⟨fun k => ⟨rfl, rfl⟩, rfl, ?_⟩
  intro n k _
  exact kindOf_eq_some_iff

/-! ### The row of a control octet and a frame (R87, R88) -/

/-- The row of a named kind. -/
def FrameKind.row : FrameKind → Bool → Frame → Instr
  | .rr   => .rr
  | .ui   => .ui
  | .rnr  => .rnr
  | .rej  => .rej
  | .dm   => .dm
  | .sabm => .sabm
  | .disc => .disc
  | .ua   => .ua
  | .uih  => .uih

/-- A frame that is read as the row ACK whatever its kind (log 16). -/
def readsAsAck (c : Byte) (f : Frame) : Prop := c = Config.ackCtrlDefault ∧ f.payload.length = 0

theorem instrOf_ack {c : Byte} {f : Frame} (h : readsAsAck c f) : instrOf c f = .ack f := if_pos h

theorem instrOf_named {c : Byte} {f : Frame} {k : FrameKind} (h : ¬ readsAsAck c f) (hk : kindOf c = some k) :
    instrOf c f = k.row (pfOf c) f := by
  refine (if_neg h).trans ?_
  rw [hk]
  cases k <;> rfl

theorem instrOf_other {c : Byte} {f : Frame} (h : ¬ readsAsAck c f) (hk : kindOf c = none) :
    instrOf c f = .anyOtherControl c f := by
  refine (if_neg h).trans ?_
  rw [hk]

theorem wellFormed_row {k : FrameKind} {pf : Bool} {f : Frame} :
    wellFormed (k.row pf f) = true ↔ f.ok = true ∧ ¬ readsAsAck (ctrlByte k.code pf) f := by
  unfold readsAsAck
  rw [ctrlByte_eq_ack]
  cases k
  case ua => cases pf <;> simp [FrameKind.row, wellFormed]
  all_goals simp [FrameKind.row, wellFormed]

theorem wellFormed_ack {f : Frame} : wellFormed (.ack f) = true ↔ f.ok = true ∧ f.payload.length = 0 := by
  simp [wellFormed]

theorem wellFormed_anyOtherControl {c : Byte} {f : Frame} :
    wellFormed (.anyOtherControl c f) = true ↔ f.ok = true ∧ kindOf c = none := by
  simp [wellFormed]

/-- Which instructions have octets: the rows of the named kinds, ACK and ANY_OTHER_CONTROL. -/
theorem frameParts_cases {i : Instr} {c : Byte} {f : Frame} (h : frameParts i = some (c, f)) :
    (∃ (k : FrameKind) (pf : Bool), i = k.row pf f ∧ c = ctrlByte k.code pf) ∨ (i = .ack f ∧ c = Config.ackCtrlDefault) ∨
      i = .anyOtherControl c f := by
  unfold frameParts at h
  split at h <;> cases h
  case h_1 pf => exact .inl ⟨.rr, pf, rfl, rfl⟩
  case h_2 pf => exact .inl ⟨.ui, pf, rfl, rfl⟩
  case h_3 pf => exact .inl ⟨.rnr, pf, rfl, rfl⟩
  case h_4 pf => exact .inl ⟨.rej, pf, rfl, rfl⟩
  case h_5 pf => exact .inl ⟨.dm, pf, rfl, rfl⟩
  case h_6 pf => exact .inl ⟨.sabm, pf, rfl, rfl⟩
  case h_7 pf => exact .inl ⟨.disc, pf, rfl, rfl⟩
  case h_8 pf => exact .inl ⟨.ua, pf, rfl, rfl⟩
  case h_9 pf => exact .inl ⟨.uih, pf, rfl, rfl⟩
  case h_10 => exact .inr (.inl ⟨rfl, rfl⟩)
  case h_11 => exact .inr (.inr rfl)

/-- The default acknowledgement octet is UA's with the poll/final bit, so ANY_OTHER_CONTROL never has it (log 16). -/
theorem kindOf_ackCtrlDefault : kindOf Config.ackCtrlDefault = some .ua := by decide

/-- A well-formed instruction with octets carries a frame that fits, and is what its control octet and frame are
read as. -/
theorem instrOf_frameParts {i : Instr} {c : Byte} {f : Frame} (hwf : wellFormed i = true)
    (h : frameParts i = some (c, f)) : f.ok = true ∧ instrOf c f = i := by
  obtain ⟨k, pf, rfl, rfl⟩ | ⟨rfl, rfl⟩ | rfl := frameParts_cases h
  · obtain ⟨hok, hack⟩ := wellFormed_row.mp hwf
    rw [instrOf_named hack (kindOf_ctrlByte k pf), pfOf_ctrlByte]
    exact ⟨hok, rfl⟩
  · obtain ⟨hok, hlen⟩ := wellFormed_ack.mp hwf
    exact ⟨hok, instrOf_ack ⟨rfl, hlen⟩⟩
  · obtain ⟨hok, hk⟩ := wellFormed_anyOtherControl.mp hwf
    refine ⟨hok, instrOf_other ?_ hk⟩
    rintro ⟨rfl, -⟩
    exact absurd (kindOf_ackCtrlDefault.symm.trans hk) nofun

/-- What a control octet and a frame that fits are read as is well formed. -/
theorem wellFormed_instrOf (c : Byte) {f : Frame} (hok : f.ok = true) : wellFormed (instrOf c f) = true := by
  by_cases hack : readsAsAck c f
  · rw [instrOf_ack hack]
    exact wellFormed_ack.mpr ⟨hok, hack.2⟩
  · cases hk : kindOf c with
    | none =>
      rw [instrOf_other hack hk]
      exact wellFormed_anyOtherControl.mpr ⟨hok, hk⟩
    | some k =>
      rw [instrOf_named hack hk]
      exact wellFormed_row.mpr ⟨hok, by rwa [ctrlByte_of_kindOf hk]⟩

theorem encode_eq_some {i : Instr} {bs : Bytes} (h : encode i = some bs) :
    ∃ c f, frameParts i = some (c, f) ∧ bs = frameBytes c f := by
  obtain ⟨⟨c, f⟩, hp, rfl⟩ := Option.map_eq_some_iff.mp h
  exact ⟨c, f, hp, rfl⟩

theorem encode_instrOf (c : Byte) (f : Frame) : encode (instrOf c f) = some (frameBytes c f) := by
  simp [encode, frameParts_instrOf]

/-! ### The decoder reads exactly the octets that the encoder writes (R80, R90) -/

/-- What follows a header in a frame's octets: the payload, its length the length octet's, the FCS octet and the
closing marker. -/
theorem decodeBody_payload (a c l f : Byte) (p rest : Bytes) (h : p.length = lenOf l) :
    decodeBody a c l (p ++ f :: Config.marker :: rest) = .ok (instrOf c (frameOf a l p f), rest) := by
  simp [decodeBody, ← h]

theorem decodeBody_eq_ok {a c l : Byte} {body rest : Bytes} {i : Instr} (h : decodeBody a c l body = .ok (i, rest)) :
    ∃ p f, p.length = lenOf l ∧ body = p ++ f :: Config.marker :: rest ∧ i = instrOf c (frameOf a l p f) := by
  unfold decodeBody at h
  split at h
  · next f e r hdrop =>
    split at h
    · next he =>
      cases h
      have hlen := congrArg List.length hdrop
      rw [List.length_drop, List.length_cons] at hlen
      refine ⟨body.take (lenOf l), f, List.length_take_of_le (by omega), ?_, rfl⟩
      rw [← he, ← hdrop, List.take_append_drop]
    · cases h
  · cases h

/-- Decoding strips the header: marker, an address octet that is not the marker, control, length. -/
theorem decode_header {a : Byte} (ha : a ≠ Config.marker) (c l : Byte) (body : Bytes) :
    decode (Config.marker :: a :: c :: l :: body) = decodeBody a c l body := by
  unfold decode
  simp only [if_pos, if_neg ha]

theorem decode_eq_ok_header {bytes rest : Bytes} {i : Instr} (h : decode bytes = .ok (i, rest)) :
    ∃ a c l body, a ≠ Config.marker ∧ bytes = Config.marker :: a :: c :: l :: body ∧
      decodeBody a c l body = .ok (i, rest) := by
  unfold decode at h
  split at h
  · cases h
  · split at h
    · next hm =>
      split at h
      · cases h
      · split at h
        · cases h
        · next ha =>
          split at h
          · exact ⟨_, _, _, _, ha, by rw [hm], h⟩
          · cases h
    · cases h

/-- The octets of a frame that fits, whatever follows them, are read as that frame. -/
theorem decode_frameBytes (c : Byte) {f : Frame} (hok : f.ok = true) (rest : Bytes) :
    decode (frameBytes c f ++ rest) = .ok (instrOf c f, rest) := by
  obtain ⟨hlen, haddr⟩ := Frame.ok_iff.mp hok
  calc decode (frameBytes c f ++ rest)
      = decode (Config.marker :: addrByte f :: c :: lenByte f :: (f.payload ++ f.fcs :: Config.marker :: rest)) := by
        simp [frameBytes]
    _ = .ok (instrOf c (frameOf (addrByte f) (lenByte f) f.payload f.fcs), rest) := by
        rw [decode_header haddr, decodeBody_payload _ _ _ _ _ _ (lenOf_lenByte f hlen).symm]
    _ = .ok (instrOf c f, rest) := by rw [frameOf_bytes]

/-- Octets that decode begin with the octets of a frame that fits, and are read as that frame. -/
theorem decode_eq_ok {bytes rest : Bytes} {i : Instr} (h : decode bytes = .ok (i, rest)) :
    ∃ c f, f.ok = true ∧ i = instrOf c f ∧ frameBytes c f ++ rest = bytes := by
  obtain ⟨a, c, l, body, ha, rfl, hbody⟩ := decode_eq_ok_header h
  obtain ⟨p, fcs, hlen, rfl, rfl⟩ := decodeBody_eq_ok hbody
  refine ⟨c, frameOf a l p fcs, Frame.ok_iff.mpr ⟨?_, ?_⟩, rfl, ?_⟩
  · exact hlen.trans_le (lenOf_le l)
  · rwa [addrByte_frameOf]
  · rw [frameBytes, addrByte_frameOf, lenByte_frameOf a l p fcs hlen]
    simp [frameOf]

/-- Settles O1: the octets are those of a frame that fits, and the instruction is what that frame is read as. -/
theorem decodeEncodeAgree : Obligations.DecodeEncodeAgree := by
  unfold Obligations.DecodeEncodeAgree
  intro i bs rest hwf henc
  obtain ⟨c, f, hparts, rfl⟩ := encode_eq_some henc
  obtain ⟨hok, hread⟩ := instrOf_frameParts hwf hparts
  rw [decode_frameBytes c hok, hread]

/-- Settles O2: octets that decode are those of a frame that fits, followed by the rest. -/
theorem encodeDecodeAgree : Obligations.EncodeDecodeAgree := by
  unfold Obligations.EncodeDecodeAgree
  intro bytes i rest h
  obtain ⟨c, f, hok, rfl, hbytes⟩ := decode_eq_ok h
  exact ⟨wellFormed_instrOf c hok, frameBytes c f, encode_instrOf c f, hbytes⟩

end Sys2Proof
end

section
/-! PROOFS. The frame codec (40_codec.md R110 to R118): the CRC register and its residue, the fields packed and
unpacked, and what each codec operation answers on an engine alive. -/

namespace Sys2Proof.Machine

/-! ### The CRC register (R110, R111, R115) -/

/-- The polynomial has its top bit set and a register shifted right has not, so the top bit tells which bit left. -/
theorem crcShift_getLsbD_seven (r : Byte) : (crcShift r).getLsbD 7 = r.getLsbD 0 := by
  unfold crcShift
  split
  · next h => simp [h, Config.crcPolynomial]
  · next h => simpa using h

theorem crcShift_injective : Function.Injective crcShift := by
  intro x y h
  have hlow : x.getLsbD 0 = y.getLsbD 0 := by rw [← crcShift_getLsbD_seven, h, crcShift_getLsbD_seven]
  have hhigh : x >>> 1 = y >>> 1 := by
    unfold crcShift at h
    rw [hlow] at h
    split at h
    · exact (BitVec.xor_left_inj _).mp h
    · exact h
  apply BitVec.eq_of_getLsbD_eq
  intro i _
  cases i with
  | zero => exact hlow
  | succ i => simpa [Nat.add_comm] using congrArg (BitVec.getLsbD · i) hhigh

theorem crcShifts_eq_iterate (n : Nat) : crcShifts n = crcShift^[n] := by
  induction n with
  | zero => rfl
  | succ n ih =>
    funext r
    rw [Function.iterate_succ_apply, ← ih, crcShifts]

/-- The residue: the register is 0xCF after an octet exactly when that octet is the register's complement. -/
theorem crcOctet_eq_residue_iff (r f : Byte) : crcOctet r f = 0xCF ↔ f = ~~~r := by
  have hinj : Function.Injective (crcShifts 8) := by
    rw [crcShifts_eq_iterate]
    exact crcShift_injective.iterate 8
  have hresidue : crcShifts 8 (BitVec.allOnes 8) = 0xCF := by decide
  calc crcOctet r f = 0xCF
      ↔ crcShifts 8 (r ^^^ f) = crcShifts 8 (BitVec.allOnes 8) := by rw [hresidue, crcOctet]
    _ ↔ r ^^^ f = BitVec.allOnes 8 := hinj.eq_iff
    _ ↔ f = ~~~r := by rw [BitVec.xor_comm, xor_eq_iff_left_eq, BitVec.allOnes_xor]

theorem crc8_append_singleton (d : Bytes) (b : Byte) : crc8 (d ++ [b]) = crcOctet (crc8 d) b := by
  simp [crc8]

theorem fcsCheck_eq_decide (a c l f : Byte) : fcsCheck a c l f = decide (f = fcsOf a c l) := rfl

/-- Settles O15: the FCS is the complement of the register, and the register takes its complement to the residue. -/
theorem fcsResidueIsCF : Obligations.FcsResidueIsCF := by
  unfold Obligations.FcsResidueIsCF
  intro a c l f
  rw [fcsCheck_eq_decide, decide_eq_true_iff, fcsOf_eq_not, ← crcOctet_eq_residue_iff,
    ← crc8_append_singleton]
  rfl

/-! ### Fields packed and unpacked (R112, R114, R118) -/

theorem ctrlByte_eq_or (kind : Byte) (pf : Bool) : ctrlByte kind pf = kind ||| (if pf = true then 0x10 else 0x00) := by
  cases pf
  · exact BitVec.or_zero.symm
  · rfl

theorem pfOf_ctrlByte_eq_or (kind : Byte) (pf : Bool) : pfOf (ctrlByte kind pf) = (pf || pfOf kind) := by
  cases pf
  · rfl
  · simp [pfOf, ctrlByte, Config.pfMask]

theorem chanOf_eq_div (a : Byte) : chanOf a = a.toNat / 4 := by
  simp [chanOf, Nat.shiftRight_eq_div_pow]

theorem lenOf_eq_div (l : Byte) : lenOf l = l.toNat / 2 := by
  simp [lenOf, Nat.shiftRight_eq_div_pow]

/-- The four octets of an encoded header whose channel and length fit their fields. -/
theorem encodeHeader_octets {ch n : Nat} (hch : ch ≤ 63) (hn : n ≤ 127) (kind : Byte) (pf : Bool) :
    Header.octets (encodeHeader ch kind pf n) = [0xF9, BitVec.ofNat 8 (4 * ch + 3),
      kind ||| (if pf = true then 0x10 else 0x00), BitVec.ofNat 8 (2 * n + 1)] := by
  rw [Header.octets, encodeHeader_addr_toNat hch, encodeHeader_len_toNat hn, ← ctrlByte_eq_or]
  rfl

theorem decodeHeader_encodeHeader {ch n : Nat} (hch : ch ≤ 63) (hn : n ≤ 127) (kind : Byte) (pf : Bool) :
    decodeHeader (encodeHeader ch kind pf n) = .fields ch (ctrlByte kind pf) (pf || pfOf kind) n := by
  rw [decodeHeader, chanOf_encodeHeader hch, lenOf_encodeHeader hn, ← pfOf_ctrlByte_eq_or]
  rfl

/-- Settles O16: the fields of an encoded header, unpacked; and the trailer's first octet is the FCS recomputed. -/
theorem headerRoundTrip : Obligations.HeaderRoundTrip := by
  unfold Obligations.HeaderRoundTrip
  intro ch kind pf n hch hn
  refine ⟨?_, _, rfl, ?_⟩
  · rw [decodeHeader_encodeHeader hch hn, ctrlByte_eq_or]
    rfl
  · rw [fcsCheck_eq_decide, decide_eq_true_iff]

/-! ### The codec operations on an engine alive (R116) -/

section
variable {s : State} (hl : s.life = .alive)
include hl

theorem exec_crc8_of_alive (d : Bytes) : exec (.crc8 d) s = .next (s.ret (.octet (crc8 d))) :=
  whenAlive_of_alive hl _

theorem exec_fcs_of_alive (a c l : Byte) : exec (.fcs a c l) s = .next (s.ret (.octet (fcsOf a c l))) :=
  whenAlive_of_alive hl _

theorem exec_encodeHeader_of_le {ch n : Nat} (h : ch ≤ 63 ∧ n ≤ 127) (kind : Byte) (pf : Bool) :
    exec (.encodeHeader ch kind pf n) s = .next (s.ret (.octets (Header.octets (encodeHeader ch kind pf n)))) :=
  (whenAlive_of_alive hl _).trans (if_pos h)

theorem exec_encodeHeader_of_not_le {ch n : Nat} (h : ¬ (ch ≤ 63 ∧ n ≤ 127)) (kind : Byte) (pf : Bool) :
    exec (.encodeHeader ch kind pf n) s = .refused .codecDomain :=
  (whenAlive_of_alive hl _).trans (if_neg h)

theorem exec_encodeTrailer_of_alive (h : Header) :
    exec (.encodeTrailer h) s = .next (s.ret (.octets (encodeTrailer h))) :=
  whenAlive_of_alive hl _

theorem exec_decodeHeader_of_alive (h : Header) : exec (.decodeHeader h) s = .next (s.ret (decodeHeader h)) :=
  whenAlive_of_alive hl _

theorem exec_fcsCheck_of_alive (a c l f : Byte) :
    exec (.fcsCheck a c l f) s = .next (s.ret (.bool (fcsCheck a c l f))) :=
  whenAlive_of_alive hl _

end

/-- The domain of ENCODE_HEADER is what the well-formedness check asks of it. -/
theorem wellFormed_encodeHeader_iff {ch n : Nat} (kind : Byte) (pf : Bool) :
    wellFormed (.encodeHeader ch kind pf n) = true ↔ ch ≤ 63 ∧ n ≤ 127 := by
  rw [wellFormed, channelOk, Bool.and_eq_true, decide_eq_true_iff, decide_eq_true_iff]
  rfl

/-- Settles O11: the octets of the encoded header on the domain; off it the test of the operation fails. -/
theorem encodeHeaderPacksFields : Obligations.EncodeHeaderPacksFields := by
  unfold Obligations.EncodeHeaderPacksFields
  intro ch kind pf n s hl
  constructor
  · intro h
    rw [exec_encodeHeader_of_le hl h, encodeHeader_octets h.1 h.2]
    rfl
  · intro h
    exact exec_encodeHeader_of_not_le hl (by omega) kind pf

/-- Settles O8: by cases on the operation; only ENCODE_HEADER has a domain, and it is the well-formedness check. -/
theorem codecOperationsArePure : Obligations.CodecOperationsArePure := by
  unfold Obligations.CodecOperationsArePure
  intro i hp
  cases i with
  | crc8 d => exact ⟨fun _ => ⟨_, fun s hl => exec_crc8_of_alive hl d⟩, nofun⟩
  | fcs a c l => exact ⟨fun _ => ⟨_, fun s hl => exec_fcs_of_alive hl a c l⟩, nofun⟩
  | encodeHeader ch kind pf n =>
    constructor
    · intro h
      rw [wellFormed_encodeHeader_iff] at h
      exact ⟨_, fun s hl => exec_encodeHeader_of_le hl h kind pf⟩
    · intro h s hl
      rw [← Bool.not_eq_true, wellFormed_encodeHeader_iff] at h
      exact exec_encodeHeader_of_not_le hl h kind pf
  | encodeTrailer h => exact ⟨fun _ => ⟨_, fun s hl => exec_encodeTrailer_of_alive hl h⟩, nofun⟩
  | decodeHeader h => exact ⟨fun _ => ⟨_, fun s hl => exec_decodeHeader_of_alive hl h⟩, nofun⟩
  | fcsCheck a c l f => exact ⟨fun _ => ⟨_, fun s hl => exec_fcsCheck_of_alive hl a c l f⟩, nofun⟩
  | _ => cases hp

/-- Settles O9: the model's register is the loop of R110, whose eight shifts are an iterate. -/
theorem crc8IsTheReflectedRegister : Obligations.Crc8IsTheReflectedRegister := by
  unfold Obligations.Crc8IsTheReflectedRegister
  refine ⟨fun d s hl => exec_crc8_of_alive hl d, rfl, fun d b => ?_⟩
  rw [crc8_append_singleton, crcOctet, crcShifts_eq_iterate]
  rfl

/-- Settles O10: the FCS is the complement of the CRC. -/
theorem fcsIsTheComplement : Obligations.FcsIsTheComplement := by
  unfold Obligations.FcsIsTheComplement
  exact fun a c l s hl => ⟨exec_fcs_of_alive hl a c l, fcsOf_eq_not a c l⟩

/-- Settles O12: the trailer of a header is its FCS and the marker. -/
theorem encodeTrailerIsFcsAndMarker : Obligations.EncodeTrailerIsFcsAndMarker := by
  unfold Obligations.EncodeTrailerIsFcsAndMarker
  exact fun h s hl => exec_encodeTrailer_of_alive hl h

/-- Settles O13: a shift right by two or by one is a division by 4 or by 2. -/
theorem decodeHeaderUnpacksFields : Obligations.DecodeHeaderUnpacksFields := by
  unfold Obligations.DecodeHeaderUnpacksFields
  intro h s hl
  rw [exec_decodeHeader_of_alive hl, decodeHeader, chanOf_eq_div, lenOf_eq_div]
  rfl

/-- Settles O14: the check compares the octet with the FCS recomputed. -/
theorem fcsCheckComparesFcs : Obligations.FcsCheckComparesFcs := by
  unfold Obligations.FcsCheckComparesFcs
  intro a c l f s hl
  rw [exec_fcsCheck_of_alive hl, fcsCheck_eq_decide]
  rfl

end Sys2Proof.Machine
end

section
/-! PROOFS. The writer (41_writer.md R130 to R137): where a payload is cut, which frames its strings are, and what a
writer call made whole leaves behind when the transport accepts every string or fails at one. -/

namespace Sys2Proof

/-- Settles O3: each stream is the octets of a frame that fits, so the decoder reads that frame and leaves nothing. -/
theorem specFramesDecode : Obligations.SpecFramesDecode := by
  unfold Obligations.SpecFramesDecode
  refine ⟨?_, ?_, ?_, ?_⟩
  · exact decode_frameBytes 0xEF (f := ⟨1, 3, 1, [0x54, 0x65, 0x73, 0x74, 0x0A], 0xDA⟩) (by decide) []
  · exact decode_frameBytes 0x3F (f := ⟨0, 3, 1, [], 0x1C⟩) (by decide) []
  · exact decode_frameBytes 0x73 (f := ⟨1, 3, 1, [], 0x15⟩) (by decide) []
  · exact decode_frameBytes 0x63 (f := ⟨1, 3, 1, [], 0x00⟩) (by decide) []

end Sys2Proof

namespace Sys2Proof.Machine

/-! ### Segments (R131) -/

/-- The number of segments is the payload's length over 127, rounded up. -/
theorem length_segmentsFuel {n : Nat} {p : Bytes} (h : p.length ≤ n) :
    (segmentsFuel n p).length = (p.length + 126) / 127 := by
  induction n generalizing p with
  | zero =>
    obtain rfl := List.length_eq_zero_iff.1 (Nat.le_zero.1 h)
    rfl
  | succ n ih =>
    cases p with
    | nil => rfl
    | cons b p =>
      have hrest : ((b :: p).drop Config.segLen).length = (b :: p).length - 127 := List.length_drop
      simp only [List.length_cons] at h hrest
      rw [segmentsFuel, List.length_cons, ih (by omega), List.length_cons]
      omega

/-- Segment `k` begins at octet `127 k`, and there is one as long as the payload reaches there. -/
theorem getElem?_segmentsFuel {n : Nat} {p : Bytes} (h : p.length ≤ n) (k : Nat) :
    (segmentsFuel n p)[k]? = if 127 * k < p.length then some ((p.drop (127 * k)).take 127) else none := by
  induction n generalizing p k with
  | zero =>
    obtain rfl := List.length_eq_zero_iff.1 (Nat.le_zero.1 h)
    rfl
  | succ n ih =>
    cases p with
    | nil => rfl
    | cons b p =>
      cases k with
      | zero => rfl
      | succ k =>
        have hrest : ((b :: p).drop 127).length = (b :: p).length - 127 := List.length_drop
        have hiff : 127 * k < (b :: p).length - 127 ↔ 127 * (k + 1) < (b :: p).length := by omega
        rw [segmentsFuel, List.getElem?_cons_succ, Config.segLen, ih (by rw [hrest]; omega), hrest, List.drop_drop,
          show 127 + 127 * k = 127 * (k + 1) by omega]
        simp only [hiff]

/-- The segments join to the payload. -/
theorem flatten_segments (p : Bytes) : (segments p).flatten = p := segmentsFuel_flatten p.length p le_rfl

theorem length_of_mem_segments {seg p : Bytes} (h : seg ∈ segments p) : 1 ≤ seg.length ∧ seg.length ≤ 127 :=
  segmentsFuel_length h

/-- Header and trailer add six octets to each segment. -/
theorem length_flatten_segmentStrings (ch : Nat) (segs : List Bytes) :
    (segs.flatMap (segmentStrings ch)).flatten.length = segs.flatten.length + 6 * segs.length := by
  induction segs with
  | nil => rfl
  | cons seg segs ih =>
    have hseg : (segmentStrings ch seg).flatten.length = seg.length + 6 := by
      simp [segmentStrings, Header.octets, encodeTrailer]
    rw [List.flatMap_cons, List.flatten_append, List.length_append, ih, hseg, List.flatten_cons, List.length_append,
      List.length_cons]
    omega

/-- Settles O17: the cuts by induction on the segments; the strings' octets segment by segment. -/
theorem segmentationCuts : Obligations.SegmentationCuts := by
  unfold Obligations.SegmentationCuts
  intro ch p
  have hcount : (segments p).length = (p.length + 126) / 127 := length_segmentsFuel le_rfl
  refine ⟨hcount, getElem?_segmentsFuel le_rfl, flatten_segments p, ?_⟩
  rw [writeStrings, length_flatten_segmentStrings, flatten_segments, hcount]

/-! ### The strings of WRITE are frames (R132, R137) -/

theorem addrByte_sentFrame {ch : Nat} (h : ch ≤ 63) (c : Byte) (p : Bytes) :
    addrByte (sentFrame ch c p) = BitVec.ofNat 8 (4 * ch + 3) := by
  have hall : ∀ c : Fin 64, BitVec.ofNat 6 c.val ++ (3 : BitVec 2) = BitVec.ofNat 8 (4 * c.val + 3) := by decide
  exact hall ⟨ch, by omega⟩

theorem lenByte_sentFrame {p : Bytes} (h : p.length ≤ 127) (ch : Nat) (c : Byte) :
    lenByte (sentFrame ch c p) = BitVec.ofNat 8 (2 * p.length + 1) := by
  have hall : ∀ n : Fin 128, BitVec.ofNat 7 n.val ++ (1 : BitVec 1) = BitVec.ofNat 8 (2 * n.val + 1) := by decide
  exact hall ⟨p.length, by omega⟩

/-- The writer's frame carries the FCS of its own header. -/
theorem fcsCheck_sentFrame {ch : Nat} (h : ch ≤ 63) {p : Bytes} (hp : p.length ≤ 127) (c : Byte) :
    fcsCheck (addrByte (sentFrame ch c p)) c (lenByte (sentFrame ch c p)) (sentFrame ch c p).fcs = true := by
  rw [addrByte_sentFrame h, lenByte_sentFrame hp, fcsCheck_eq_decide, decide_eq_true_iff]
  rfl

theorem ok_sentFrame {ch : Nat} (h : ch ≤ 63) {p : Bytes} (hp : p.length ≤ 127) (c : Byte) :
    (sentFrame ch c p).ok = true := by
  refine Frame.ok_iff.2 ⟨hp, ?_⟩
  rw [addrByte_sentFrame h, ← encodeHeader_addr_toNat h 0 false 0]
  exact encodeHeader_addr_ne_marker h 0 false 0

/-- The three strings of a segment, octet by octet. -/
theorem segmentStrings_eq {ch : Nat} (h : ch ≤ 63) {seg : Bytes} (hs : seg.length ≤ 127) :
    segmentStrings ch seg = [[0xF9, BitVec.ofNat 8 (4 * ch + 3), 0xEF, BitVec.ofNat 8 (2 * seg.length + 1)], seg,
      [(sentFrame ch 0xEF seg).fcs, 0xF9]] := by
  rw [segmentStrings, encodeHeader_octets h hs, encodeTrailer, encodeHeader_addr_toNat h, encodeHeader_len_toNat hs]
  rfl

theorem flatten_segmentStrings {ch : Nat} (h : ch ≤ 63) {seg : Bytes} (hs : seg.length ≤ 127) :
    (segmentStrings ch seg).flatten = frameBytes 0xEF (sentFrame ch 0xEF seg) := by
  rw [segmentStrings_eq h hs, frameBytes, addrByte_sentFrame h, lenByte_sentFrame hs]
  simp [sentFrame, Config.marker]

/-- Settles O18: each segment has 1 to 127 octets, so its header's fields fit. -/
theorem writeStringsAreFrames : Obligations.WriteStringsAreFrames := by
  unfold Obligations.WriteStringsAreFrames
  intro ch p h
  refine ⟨List.flatMap_congr fun seg hseg => segmentStrings_eq h (length_of_mem_segments hseg).2, fun seg hseg => ?_⟩
  have hs := (length_of_mem_segments hseg).2
  exact ⟨flatten_segmentStrings h hs, ok_sentFrame h hs 0xEF, fcsCheck_sentFrame h hs 0xEF⟩

/-! ### A writer call that the transport answers (R130, R133, R135, R136) -/

theorem runTask_returned {t : Task} {s u : State} (h : moveTask t s = .returned u) (k : Nat) :
    runTask (k + 1) t s = .next u := by
  rw [runTask, h]

section
variable {i : Instr} {ch n : Nat} {s : State} {rs rest : List TxReply}

/-- A writer call with a free lock, after its accepted strings: it holds the lock and has the others to make. -/
theorem exec_writerCall_sentAll {pre post : List Bytes} (hi : WriterCall i ch (pre ++ post) n) (hl : s.life = .alive)
    (hc : ch ≤ s.cfg.nData.val) (hfree : s.txlock = .free) (hr : s.replies = rs ++ rest) (hok : Accepts rs pre) :
    exec i s = runTask (2 * post.length + 2) (.tx ⟨s.caller, .ready, post, n⟩)
      ((s.setLock (.held s.caller)).sentAll pre rest) := by
  have hfuel : 2 * (pre ++ post).length + 3 = 2 * post.length + 2 + 2 * pre.length + 1 := by
    rw [List.length_append]
    omega
  rw [exec_writerCall hi hl hc, hfuel, runTask_goesOn (moveTask_acquire _ _ _ hfree),
    runTask_sentAll (s := s.setLock (.held s.caller)) hr hok]

/-- A writer call whose strings are all accepted returns its count. -/
theorem exec_writerCall_accepted {ws : List Bytes} (hi : WriterCall i ch ws n) (hl : s.life = .alive)
    (hc : ch ≤ s.cfg.nData.val) (hfree : s.txlock = .free) (hr : s.replies = rs ++ rest) (hok : Accepts rs ws) :
    exec i s = .next { s with
      portCalls := s.portCalls ++ ws.map .write, wire := s.wire ++ ws.flatten, replies := rest
      results := s.results ++ [⟨s.caller, .count n⟩] } := by
  rw [← List.append_nil ws] at hi
  rw [exec_writerCall_sentAll hi hl hc hfree hr hok, runTask_returned (moveTask_done ..)]
  simp [State.sentAll, State.setLock, State.retTo, txReturn, hfree]
end

/-- Settles O19: WRITE is the writer call of its strings. -/
theorem writeSucceeds : Obligations.WriteSucceeds := by
  unfold Obligations.WriteSucceeds
  intro ch p s rs rest hl hc hfree hr hok
  exact exec_writerCall_accepted (.write ch p) hl hc hfree hr hok

theorem ctrlStrings_eq {ch : Nat} (h : ch ≤ 63) (kind : Byte) (pf : Bool) :
    ctrlStrings ch kind pf =
      [[0xF9, BitVec.ofNat 8 (4 * ch + 3), kind ||| (if pf = true then 0x10 else 0), 0x01],
       [0xFF - crc8 [BitVec.ofNat 8 (4 * ch + 3), kind ||| (if pf = true then 0x10 else 0), 0x01], 0xF9]] := by
  rw [ctrlStrings, encodeHeader_octets h (Nat.zero_le 127), encodeTrailer, encodeHeader_addr_toNat h,
    encodeHeader_len_toNat (Nat.zero_le 127), fcsOf, show (encodeHeader ch kind pf 0).ctrl = ctrlByte kind pf from rfl,
    ctrlByte_eq_or]
  rfl

/-- Settles O20: SEND_CTRL is the writer call of its two strings, of four and of two octets. -/
theorem sendCtrlSucceeds : Obligations.SendCtrlSucceeds := by
  unfold Obligations.SendCtrlSucceeds
  intro ch kind pf s r1 r2 rest hl hc hfree hr h1 h2
  have hch : ch ≤ 63 := known_le (decide_eq_true hc)
  have hok : Accepts [r1, r2] (ctrlStrings ch kind pf) := by
    simp [Accepts, ctrlStrings, Header.octets, encodeTrailer, h1, h2]
  rw [exec_writerCall_accepted (.sendCtrl ch kind pf) hl hc hfree hr hok, ctrlStrings_eq hch]
  rfl

/-- Settles O21: after the accepted strings the next TxWrite is made and its answer ends the call. -/
theorem writerAbortsOnFailure : Obligations.WriterAbortsOnFailure := by
  unfold Obligations.WriterAbortsOnFailure
  intro i ch n pre post w s rs rest r hi hl hc hfree hr hok hbad
  rw [exec_writerCall_sentAll hi hl hc hfree hr hok, runTask_goesOn (moveTask_txWrite ..), List.length_cons,
    runTask_returned (moveTask_failed _ _ _ _ rfl hbad)]
  simp [State.sentAll, State.setLock, State.portCall, hfree]

end Sys2Proof.Machine
end

section
/-! PROOFS. The loopback (41_writer.md R137, 42_decoder.md R163): a WRITE that succeeds has put its frames on the wire,
and a decoder between frames takes each frame of a bound channel in eight moves and delivers its payload. -/

namespace Sys2Proof.Machine

/-! ### What a successful writer call leaves on the wire (R130, R135) -/

/-- A writer call under way: it has given no result yet, and what is on the wire and what is left to write make up
`sent`. -/
def Sending (results : List Returned) (sent : Bytes) (t : Task) (s : State) : Prop :=
  ∃ job, t = .tx job ∧ s.results = results ∧ s.wire ++ job.todo.flatten = sent

/-- A writer call that has returned: it has written all of `sent`, or it has failed. -/
def Sent (results : List Returned) (sent : Bytes) (s : State) : Prop :=
  s.wire = sent ∨ ∃ c, s.results = results ++ [⟨c, .ioError⟩]

/-- What a move of a writer call under way answers: it waits, goes on or has returned, and never faults. -/
def SendsOn (results : List Returned) (sent : Bytes) : Moved → Prop
  | .blocked => True
  | .fault _ => False
  | .returned u => Sent results sent u
  | .goesOn t s => Sending results sent t s

theorem moveTask_sendsOn {results : List Returned} {sent : Bytes} {t : Task} {s : State} {m : Moved}
    (h : Sending results sent t s) (hm : moveTask t s = m) : SendsOn results sent m := by
  obtain ⟨job, rfl, hres, hsent⟩ := h
  rw [← hm, moveTask]
  rcases txMove_cases job s with ⟨_, _, e⟩ | ⟨_, _, e⟩ | ⟨_, htodo, e⟩ | ⟨_, _, _, _, e⟩ | ⟨_, _, _, _, _, e⟩ |
    ⟨_, _, _, _, _, htodo, _, _, e⟩ | ⟨_, _, _, _, _, _, _, _, e⟩ <;> rw [e]
  · trivial
  · exact ⟨_, rfl, hres, hsent⟩
  · exact .inl (by simpa [htodo, txReturn] using hsent)
  · exact ⟨_, rfl, hres, hsent⟩
  · trivial
  · exact ⟨_, rfl, hres, by simpa [htodo] using hsent⟩
  · exact .inr ⟨job.caller, by simp [txReturn, hres]⟩

/-- A WRITE that gives its count back has put all its strings on the wire. -/
theorem wire_of_write_ok {ch n : Nat} {p : Bytes} {s t : State} (h : exec (.write ch p) s = .next t)
    (hok : t.results = s.results ++ [⟨s.caller, .count n⟩]) : t.wire = s.wire ++ (writeStrings ch p).flatten := by
  replace h : runBegun (beginTx ch (writeStrings ch p) p.length s) = .next t := h
  cases hb : beginTx ch (writeStrings ch p) p.length s with
  | refused q => rw [hb] at h; cases h
  | begun task s' =>
    obtain ⟨-, rfl, rfl⟩ := beginTx_begun hb
    rw [hb, runBegun] at h
    have hbegun : Sending s'.results (s'.wire ++ (writeStrings ch p).flatten)
        (.tx ⟨s'.caller, .waiting, writeStrings ch p, p.length⟩) s' := ⟨_, rfl, rfl, rfl⟩
    obtain ⟨u, hu, hend⟩ := runTask_induct _ _ (fun _ _ _ _ => moveTask_sendsOn) (fun _ _ _ => moveTask_sendsOn)
      (fun _ _ _ => moveTask_sendsOn) _ _ _ hbegun
    cases hu.symm.trans h
    rcases hend with (hwire | ⟨c, hfail⟩) | ⟨_, v, ⟨_, _, hres, _⟩, rfl⟩
    · exact hwire
    · simp [hfail] at hok
    · simp [hres] at hok

/-! ### What a running RX_CHUNK call takes (R150) -/

/-- An RX_CHUNK call that finds `bs` next in its chunk takes it in `k` moves, which lead from `s` to `u`. -/
def Takes (bs : Bytes) (k : Nat) (s u : State) : Prop :=
  ∀ c rest n, runTask (n + k) (.rx c (bs ++ rest)) s = runTask n (.rx c rest) u

theorem Takes.refl (s : State) : Takes [] 0 s s := fun _ _ _ => rfl

theorem Takes.trans {x y : Bytes} {j k : Nat} {s t u : State} (h : Takes x j s t) (g : Takes y k t u) :
    Takes (x ++ y) (j + k) s u := by
  intro c rest n
  rw [List.append_assoc, Nat.add_comm j, ← Nat.add_assoc, h, g]

section
variable {s u : State}

theorem takes_callback (h : s.callback ≠ none) : Takes [] 1 s (s.setCallback none) := by
  refine fun c rest n => runTask_goesOn ?_ n
  cases hcb : s.callback with
  | none => exact absurd hcb h
  | some ch => simp [moveTask, rxMove, hcb]

theorem takes_byte {b : Byte} (hcb : s.callback = none) (hst : s.cur.st ≠ .payload) (h : byteStep b s = .ok u) :
    Takes [b] 1 s u := by
  refine fun c rest n => runTask_goesOn ?_ n
  simp [moveTask, rxMove, hcb, hst, h, onward]

/-- The payload that a frame still lacks is taken as one slice when the chunk holds all of it. -/
theorem takes_payload {p : Bytes} (hcb : s.callback = none) (hst : s.cur.st = .payload) (hne : p ≠ [])
    (hrem : s.cur.rem = p.length) (h : payloadStep p s = .ok u) : Takes p 1 s u := by
  refine fun c rest n => runTask_goesOn ?_ n
  have hk : min s.cur.rem (p ++ rest).length = p.length := by
    rw [hrem, List.length_append]
    omega
  rcases rxMove_cases c (p ++ rest) s with ⟨hb, _⟩ | ⟨_, he, _⟩ | ⟨_, _, _, e⟩ | ⟨_, hp, _⟩
  · exact absurd hcb hb
  · exact absurd (List.append_eq_nil_iff.1 he).1 hne
  · rw [moveTask, e, hk, List.take_left, List.drop_left, h, onward]
  · exact absurd hst hp

/-- A call that takes its whole chunk, with moves to spare, returns. -/
theorem runTask_takes_all {bs : Bytes} {k m : Nat} (h : Takes bs k s u) (hcb : u.callback = none) (hk : k < m)
    (c : Caller) : runTask m (.rx c bs) s = .next ((u.setBusy false).retTo c (.bool (atBoundary u.cur.st))) := by
  obtain ⟨d, rfl⟩ : ∃ d, m = d + 1 + k := ⟨m - k - 1, by omega⟩
  rw [← List.append_nil bs, h]
  refine runTask_returned ?_ d
  simp [moveTask, rxMove, hcb]
end

/-! ### Byte steps, by place in the frame (R151, R152, R156) -/

section
variable {s : State} (b : Byte)

theorem byteStep_opening (hst : s.cur.st = .init) : byteStep Config.marker s = .ok (openFrame s) := by
  simp [byteStep, hst]

theorem byteStep_address (hst : s.cur.st = .header) (hcnt : s.cur.cnt = 1) (hb : b ≠ Config.marker) :
    byteStep b s = .ok (s.setCur { s.cur with hdr := { s.cur.hdr with h1 := b }, cnt := 2 }) := by
  simp [byteStep, hst, hcnt, hb, storeHdr, Hdr.put]

theorem byteStep_control (hst : s.cur.st = .header) (hcnt : s.cur.cnt = 2) :
    byteStep b s = .ok (s.setCur { s.cur with hdr := { s.cur.hdr with h2 := b }, cnt := 3 }) := by
  simp [byteStep, hst, hcnt, storeHdr, Hdr.put]

theorem byteStep_length (hst : s.cur.st = .header) (hcnt : s.cur.cnt = 3) :
    byteStep b s = .ok (headerDone (s.setCur { s.cur with hdr := { s.cur.hdr with h3 := b }, cnt := 4 })) := by
  simp [byteStep, hst, hcnt, storeHdr, Hdr.put]

theorem byteStep_fcs (hst : s.cur.st = .footer) (hcnt : s.cur.cnt = 4) :
    byteStep b s = .ok (s.setCur { s.cur with hdr := { s.cur.hdr with h4 := b }, cnt := 5 }) := by
  simp [byteStep, hst, hcnt, storeHdr, Hdr.put]

theorem byteStep_closing (hst : s.cur.st = .footer) (hcnt : s.cur.cnt = 5) :
    byteStep b s = frameEnd (s.setCur { s.cur with hdr := { s.cur.hdr with h5 := b }, cnt := 6 }) := by
  simp [byteStep, hst, hcnt, storeHdr, Hdr.put]
end

/-! ### Header and trailer in one chunk -/

/-- The cursor with the octets of a complete header in `hdr`. -/
def Cursor.withHeader (cur : Cursor) (a ctl l : Byte) : Cursor :=
  { cur with st := .header, cnt := 4, hdr := { cur.hdr with h1 := a, h2 := ctl, h3 := l } }

/-- The cursor with the octets of a complete trailer in `hdr`. -/
def Cursor.withTrailer (cur : Cursor) (f e : Byte) : Cursor :=
  { cur with cnt := 6, hdr := { cur.hdr with h4 := f, h5 := e } }

theorem takes_header {s : State} {a : Byte} (hcb : s.callback = none) (hst : s.cur.st = .init) (ha : a ≠ Config.marker)
    (ctl l : Byte) :
    Takes [Config.marker, a, ctl, l] 4 s (headerDone (s.setCur (s.cur.withHeader a ctl l))) :=
  have hm := takes_byte hcb (by simp [hst]) (byteStep_opening hst)
  have ha := hm.trans (takes_byte (by exact hcb) (by simp [openFrame]) (byteStep_address a rfl rfl ha))
  have hc := ha.trans (takes_byte (by exact hcb) (by simp [openFrame]) (byteStep_control ctl rfl rfl))
  hc.trans (takes_byte (by exact hcb) (by simp [openFrame]) (byteStep_length l rfl rfl))

theorem takes_trailer {s u : State} {f e : Byte} (hcb : s.callback = none) (hst : s.cur.st = .footer)
    (hcnt : s.cur.cnt = 4) (h : frameEnd (s.setCur (s.cur.withTrailer f e)) = .ok u) : Takes [f, e] 2 s u :=
  have hf := takes_byte hcb (by simp [hst]) (byteStep_fcs f hst hcnt)
  hf.trans (takes_byte (by exact hcb) (by simp [hst]) ((byteStep_closing e (by exact hst) rfl).trans h))

/-! ### A data frame on a bound channel (R153 to R159) -/

theorem routeOf_data {cfg : Cfg} {a l : Byte} (hk : known cfg (chanOf a) = true) (c : Byte) (hl : lenOf l ≠ 0) :
    routeOf cfg a c l = .data := by
  simp [routeOf, hk, hl]

/-- The cursor at the first payload octet of a frame. -/
def Cursor.atPayload (cur : Cursor) (a ctl l : Byte) : Cursor :=
  { cur.withHeader a ctl l with st := .payload, ch := chanOf a, kind := ctl, rem := lenOf l, rlen := 0 }

theorem headerDone_data {s : State} {a ctl l : Byte} (hroute : routeOf s.cfg a ctl l = .data) (hl : lenOf l ≠ 0) :
    headerDone (s.setCur (s.cur.withHeader a ctl l)) = s.setCur (s.cur.atPayload a ctl l) := by
  simp [headerDone, route, hroute, hl, State.setCur, Cursor.atPayload, Cursor.withHeader]

theorem dispatch_bound {s : State} {ch : Nat} {h : Handle} (hk : known s.cfg ch = true) (hcb : s.cbAt ch = some h)
    (bs : Bytes) : dispatch ch bs s = (s.emit (.deliver ch h bs)).setCallback (some ch) := by
  simp [dispatch, hk, hcb]

/-- A frame with a good trailer is accepted, whatever the configuration says of the FCS. -/
theorem frameEnd_good {s : State} (hend : s.cur.hdr.h5 = Config.marker)
    (hfcs : fcsCheck s.cur.hdr.h1 s.cur.hdr.h2 s.cur.hdr.h3 s.cur.hdr.h4 = true) : frameEnd s = acceptFrame s := by
  simp [frameEnd, hend, hfcs]

/-- The cursor after the payload `bs` of a frame has been stored from the buffer's start (`DEFRAG`). -/
def Cursor.gathered (cur : Cursor) (bs : Bytes) : Cursor :=
  { cur with rbuf := cur.rbuf.writeBytes 0 bs, rlen := bs.length, rem := 0, st := .footer }

/-- The cursor after the payload of a frame has been handed on. -/
def Cursor.sliced (cur : Cursor) : Cursor := { cur with rem := 0, st := .footer }

section
variable {s : State} {bs : Bytes} (hroute : route s = .data)
include hroute

theorem payloadStep_gather (hd : s.cfg.defrag = true) (hrlen : s.cur.rlen = 0) (hrem : s.cur.rem = bs.length)
    (hlen : bs.length ≤ 127) : payloadStep bs s = .ok (s.setCur (s.cur.gathered bs)) := by
  have hm : memWrite s.cur.rbuf 0 bs = some (s.cur.rbuf.writeBytes 0 bs) := if_pos (by rwa [Nat.zero_add])
  simp [payloadStep, takePayload, hroute, hd, hrlen, hm, countPayload, hrem, State.setCur, Cursor.gathered]

theorem payloadStep_slice (hd : s.cfg.defrag = false) (hrem : s.cur.rem = bs.length) :
    payloadStep bs s = .ok ((dispatch s.cur.ch bs s).setCur s.cur.sliced) := by
  simp [payloadStep, takePayload, hroute, hd, countPayload, hrem, Cursor.sliced]

theorem acceptFrame_gathered {m : Memory} (hd : s.cfg.defrag = true) (hm : m.wf = true)
    (hbuf : s.cur.rbuf = m.writeBytes 0 bs) (hrlen : s.cur.rlen = bs.length) (hne : bs ≠ []) (hlen : bs.length ≤ 127) :
    acceptFrame s = .ok (closeFrame (dispatch s.cur.ch bs s)) := by
  have hread : memRead (m.writeBytes 0 bs) bs.length = some bs :=
    (if_pos hlen).trans (congrArg some (Memory.readBytes_writeBytes bs hm))
  have hpos : 0 < bs.length := List.length_pos_iff.2 hne
  simp [acceptFrame, hroute, hd, hbuf, hrlen, hpos, hread]

theorem acceptFrame_sliced (hd : s.cfg.defrag = false) : acceptFrame s = .ok (closeFrame s) := by
  simp [acceptFrame, hroute, hd]
end

/-- The decoder is between frames, with callback `h` bound to the known channel `ch` and no callback running. -/
structure Listening (ch : Nat) (h : Handle) (s : State) : Prop where
  known    : known s.cfg ch = true
  bound    : s.cbAt ch = some h
  idle     : s.callback = none
  boundary : s.cur.st = .init
  buffer   : s.cur.rbuf.wf = true

/-- From `s` to `u` the payloads `ps` were delivered to channel `ch`, in order, and nothing was noted. -/
structure Delivered (ch : Nat) (h : Handle) (ps : List Bytes) (s u : State) : Prop where
  listening : Listening ch h u
  events    : u.events = s.events ++ ps.map (.deliver ch h)
  diags     : u.diags = s.diags

/-- The decoder has read the header of a data frame for `ch`; the payload `p` and the good FCS octet `f` are to come. -/
structure Receiving (ch : Nat) (h : Handle) (p : Bytes) (f : Byte) (s : State) : Prop where
  known  : known s.cfg ch = true
  bound  : s.cbAt ch = some h
  idle   : s.callback = none
  buffer : s.cur.rbuf.wf = true
  phase  : s.cur.st = .payload
  cnt    : s.cur.cnt = 4
  chan   : s.cur.ch = ch
  route  : route s = .data
  fresh  : s.cur.rlen = 0
  rem    : s.cur.rem = p.length
  fcs    : fcsCheck s.cur.hdr.h1 s.cur.hdr.h2 s.cur.hdr.h3 f = true

section
variable {ch : Nat} {h : Handle} {p : Bytes} {f : Byte} {s : State} (hs : Receiving ch h p f s) (hne : p ≠ [])
include hs hne

/-- With `DEFRAG` the payload is gathered and the callback runs after the trailer. -/
theorem takes_gathered (hlen : p.length ≤ 127) (hd : s.cfg.defrag = true) :
    ∃ u, Takes (p ++ [f, Config.marker]) 4 s u ∧ Delivered ch h [p] s u := by
  obtain ⟨hk, hb, hcb, hwf, hst, hcnt, rfl, hroute, hrlen, hrem, hfcs⟩ := hs
  have hpayload := takes_payload hcb hst hne hrem (payloadStep_gather hroute hd hrlen hrem hlen)
  have htrailer := takes_trailer (s := s.setCur (s.cur.gathered p)) (f := f) hcb rfl hcnt
    ((frameEnd_good rfl hfcs).trans (acceptFrame_gathered (by exact hroute) hd hwf rfl rfl hne hlen))
  rw [dispatch_bound (by exact hk) (by exact hb)] at htrailer
  refine ⟨_, hpayload.trans (htrailer.trans (takes_callback (by simp [closeFrame]))), ⟨hk, hb, rfl, rfl, ?_⟩, rfl, rfl⟩
  exact Memory.writeBytes_wf 0 p hwf

/-- Without `DEFRAG` the callback runs after the payload and the trailer ends the frame. -/
theorem takes_sliced (hd : s.cfg.defrag = false) :
    ∃ u, Takes (p ++ [f, Config.marker]) 4 s u ∧ Delivered ch h [p] s u := by
  obtain ⟨hk, hb, hcb, hwf, hst, hcnt, rfl, hroute, hrlen, hrem, hfcs⟩ := hs
  have hpayload := takes_payload hcb hst hne hrem (payloadStep_slice hroute hd hrem)
  rw [dispatch_bound hk hb] at hpayload
  have hcallback := hpayload.trans (takes_callback (by simp))
  have htrailer := takes_trailer (s := ((s.emit (.deliver s.cur.ch h p)).setCur s.cur.sliced).setCallback none) (f := f)
    rfl rfl hcnt ((frameEnd_good rfl hfcs).trans (acceptFrame_sliced (by exact hroute) hd))
  rw [List.append_nil] at hcallback
  exact ⟨_, hcallback.trans htrailer, ⟨hk, hb, rfl, rfl, hwf⟩, rfl, rfl⟩
end

/-- A data frame with a payload and a good FCS is taken in eight moves, the callback's return among them. -/
theorem takes_dataFrame {ch : Nat} {h : Handle} {s : State} (hs : Listening ch h s) {a l f : Byte} {p : Bytes}
    (ha : a ≠ Config.marker) (hch : chanOf a = ch) (hl : lenOf l = p.length) (hne : p ≠ []) (ctl : Byte)
    (hfcs : fcsCheck a ctl l f = true) :
    ∃ u, Takes (Config.marker :: a :: ctl :: l :: (p ++ [f, Config.marker])) 8 s u ∧ Delivered ch h [p] s u := by
  obtain ⟨hk, hb, hcb, hst, hwf⟩ := hs
  have hl0 : lenOf l ≠ 0 := by rwa [hl, Ne, List.length_eq_zero_iff]
  have hroute := routeOf_data (hch ▸ hk) ctl hl0
  have hheader := takes_header hcb hst ha ctl l
  rw [headerDone_data hroute hl0] at hheader
  have hr : Receiving ch h p f (s.setCur (s.cur.atPayload a ctl l)) :=
    ⟨hk, hb, hcb, hwf, rfl, rfl, hch, hroute, rfl, hl, hfcs⟩
  have hrest : ∃ u, Takes (p ++ [f, Config.marker]) 4 (s.setCur (s.cur.atPayload a ctl l)) u ∧
      Delivered ch h [p] (s.setCur (s.cur.atPayload a ctl l)) u := by
    cases hd : s.cfg.defrag with
    | true => exact takes_gathered hr hne (hl ▸ lenOf_le l) hd
    | false => exact takes_sliced hr hne hd
  obtain ⟨u, htakes, hu⟩ := hrest
  exact ⟨u, hheader.trans htakes, hu.listening, hu.events, hu.diags⟩

/-! ### The segments of a WRITE, one frame after the other (R131, R137) -/

/-- The decoder takes the frames of any number of segments in eight moves each. -/
theorem takes_segments {ch : Nat} {h : Handle} (hch : ch ≤ 63) {segs : List Bytes}
    (hseg : ∀ seg ∈ segs, 1 ≤ seg.length ∧ seg.length ≤ 127) {s : State} (hs : Listening ch h s) :
    ∃ u, Takes (segs.flatMap (segmentStrings ch)).flatten (8 * segs.length) s u ∧ Delivered ch h segs s u := by
  induction segs generalizing s with
  | nil => exact ⟨s, Takes.refl s, hs, (List.append_nil _).symm, rfl⟩
  | cons seg segs ih =>
    obtain ⟨⟨h1, h127⟩, hrest⟩ := List.forall_mem_cons.1 hseg
    obtain ⟨-, haddr⟩ := Frame.ok_iff.1 (ok_sentFrame hch h127 0xEF)
    have hchan : chanOf (addrByte (sentFrame ch 0xEF seg)) = ch :=
      (chanOf_addrByte _).trans (Nat.mod_eq_of_lt (Nat.lt_succ_of_le hch))
    have hne : (sentFrame ch 0xEF seg).payload ≠ [] := List.ne_nil_of_length_pos h1
    obtain ⟨t, htakes, ht⟩ := takes_dataFrame hs haddr hchan (lenOf_lenByte _ h127) hne 0xEF
      (fcsCheck_sentFrame hch h127 0xEF)
    obtain ⟨u, htakes', hu⟩ := ih hrest ht.listening
    refine ⟨u, ?_, hu.listening, ?_, hu.diags.trans ht.diags⟩
    · rw [List.flatMap_cons, List.flatten_append, flatten_segmentStrings hch h127, List.length_cons, Nat.mul_succ,
        Nat.add_comm]
      exact htakes.trans htakes'
    · rw [hu.events, ht.events, List.append_assoc]
      rfl

/-- An RX_CHUNK on an engine alive and not busy is the run of its call. -/
theorem exec_rxChunk {s : State} (hl : s.life = .alive) (hb : s.rxBusy = false) (bs : Bytes) :
    exec (.rxChunk bs) s = runTask (2 * bs.length + 4) (.rx s.caller bs) (s.setBusy true) := by
  have hbegin : beginRx bs s = .begun (.rx s.caller bs) (s.setBusy true) := by simp [beginRx, hl, hb]
  exact congrArg runBegun hbegin

/-- What Deliver events on one channel bring to a channel: everything to their own, nothing to another. -/
theorem deliveredTo_map_deliver (c ch : Nat) (h : Handle) (ps : List Bytes) :
    deliveredTo c (ps.map (.deliver ch h)) = if ch = c then ps.flatten else [] := by
  induction ps with
  | nil => simp [deliveredTo]
  | cons p ps ih =>
    simp only [deliveredTo, List.map_cons, List.flatMap_cons] at ih ⊢
    rw [ih]
    split <;> rfl

/-- No callback runs while no RX_CHUNK does. -/
theorem callback_eq_none {s : State} (h : CallsInv s) (hb : s.rxBusy = false) : s.callback = none := by
  obtain ⟨-, -, -, hcb, -⟩ := h
  cases hc : s.callback with
  | none => rfl
  | some ch => exact absurd (hcb (by simp [hc])) (by simp [hb])

/-- Settles O39: the wire holds the frames of the segments, and the decoder takes them one after the other. -/
theorem loopbackDeliversThePayload : Obligations.LoopbackDeliversThePayload := by
  unfold Obligations.LoopbackDeliversThePayload
  intro ch p h s t r hwrite hok hinv hlife hbusy hst hch hbound
  obtain ⟨hcur, hcalls, -, -⟩ := hinv
  have hknown : known r.cfg ch = true := decide_eq_true hch
  have hidle : r.callback = none := callback_eq_none hcalls hbusy
  obtain ⟨-, -, -, hwf, -⟩ := hcur.ranges
  have hlisten : Listening ch h (r.setBusy true) := ⟨hknown, hbound, hidle, hst, hwf⟩
  obtain ⟨u, htakes, hu⟩ := takes_segments (known_le hknown) (fun _ => length_of_mem_segments) hlisten
  have hfuel : 8 * (segments p).length < 2 * (writeStrings ch p).flatten.length + 4 := by
    have := length_flatten_segmentStrings ch (segments p)
    rw [writeStrings]
    omega
  have hrun := runTask_takes_all htakes hu.listening.idle hfuel r.caller
  have hnew : u.events.drop r.events.length = (segments p).map (.deliver ch h) := by
    rw [hu.events]
    exact List.drop_left
  rw [wire_of_write_ok hwrite hok, List.drop_left, exec_rxChunk hlife hbusy]
  refine ⟨_, hrun, hu.listening.boundary, hu.events, hu.diags, ?_, fun c hc => ?_⟩ <;>
    rw [State.retTo_events, State.setBusy_events, hnew, deliveredTo_map_deliver]
  · rw [if_pos rfl, flatten_segments]
  · rw [if_neg hc.symm]

end Sys2Proof.Machine
end

section
/-! PROOFS. RX_CHUNK (42_decoder.md R150): a frame instruction is RX_CHUNK of its octets; a call has moves enough for
every chunk, so that a chunk is what its octets do, one after the other; the empty chunk and an overlapping call. -/

namespace Sys2Proof.Machine

/-! ### A frame is RX_CHUNK of its octets (R88, R150) -/

theorem exec_of_frameParts {i : Instr} {c : Byte} {f : Frame} (h : frameParts i = some (c, f)) (s : State) :
    exec i s = exec (.rxChunk (frameBytes c f)) s := by
  obtain ⟨k, pf, rfl, rfl⟩ | ⟨rfl, rfl⟩ | rfl := frameParts_cases h
  · cases k <;> rfl
  · rfl
  · rfl

/-- Reading a chunk as a frame changes nothing (log 17). -/
theorem exec_fetch (chunk : Bytes) (s : State) : exec (fetch chunk) s = exec (.rxChunk chunk) s := by
  unfold fetch
  split
  · next i h =>
    obtain ⟨c, f, -, rfl, hbytes⟩ := decode_eq_ok h
    rw [exec_of_frameParts (frameParts_instrOf c f), ← hbytes, List.append_nil]
  · rfl

theorem fetch_of_decode {chunk : Bytes} {i : Instr} (h : decode chunk = .ok (i, [])) : fetch chunk = i := by
  simp [fetch, h]

theorem step_arrive {s : State} {c : Caller} {chunk : Bytes} {ms : List Move} (h : s.agenda = .arrive c chunk :: ms) :
    step s = exec (fetch chunk) { s with agenda := ms, caller := c } := by
  simp [step, h, stepWith, perform, State.setCaller]

/-- Settles O6: an arrival is read by `fetch`, and the frame it may read is RX_CHUNK of the same octets. -/
theorem arrivalIsRxChunk : Obligations.ArrivalIsRxChunk := by
  unfold Obligations.ArrivalIsRxChunk
  intro s c chunk ms h
  rw [step_arrive h, exec_fetch]

/-- Settles O5: `fetch` reads a chunk that decodes with nothing left as the decoded instruction. -/
theorem stepRunsDecodedFrame : Obligations.StepRunsDecodedFrame := by
  unfold Obligations.StepRunsDecodedFrame
  intro s c chunk ms i h hdecode
  rw [step_arrive h, fetch_of_decode hdecode]

/-! ### A call while another one runs (R265) -/

theorem exec_rxChunk_of_busy {s : State} (hl : s.life = .alive) (hb : s.rxBusy = true) (bs : Bytes) :
    exec (.rxChunk bs) s = .refused .rxOverlap := by
  have hbegin : beginRx bs s = .refused .rxOverlap := by simp [beginRx, hl, hb]
  exact congrArg runBegun hbegin

/-- What hands octets to the decoder is RX_CHUNK of them. -/
theorem exec_of_inbound {i : Instr} (h : inbound i = true) (s : State) : ∃ bs, exec i s = exec (.rxChunk bs) s := by
  unfold inbound at h
  split at h
  · next bs => exact ⟨bs, rfl⟩
  · obtain ⟨⟨c, f⟩, hparts⟩ := Option.isSome_iff_exists.1 h
    exact ⟨_, exec_of_frameParts hparts s⟩

/-- Settles O40: every inbound instruction is an RX_CHUNK, which is refused while `rx_busy` is set. -/
theorem overlappingRxIsRefused : Obligations.OverlappingRxIsRefused := by
  unfold Obligations.OverlappingRxIsRefused
  intro i s hi hl hb
  obtain ⟨bs, e⟩ := exec_of_inbound hi s
  rw [e, exec_rxChunk_of_busy hl hb]

/-! ### What a decoder step leaves of the cursor -/

/-- Every state that a decoder step answers has the property `P`. -/
def Yields (P : State → Prop) (r : Except Fault State) : Prop := ∀ t, r = .ok t → P t

theorem Yields.ok {P : State → Prop} {t : State} (h : P t) : Yields P (.ok t) := by
  rintro _ ⟨⟩
  exact h

theorem Yields.error (P : State → Prop) (f : Fault) : Yields P (.error f) := by
  intro t h
  cases h

/-- In PAYLOAD with no octet to come, where no run gets to and a call makes a move that takes no octet. -/
abbrev Stalled (s : State) : Prop := s.cur.st = .payload ∧ s.cur.rem = 0

/-- What a decoder step that begins at `s` leaves: an octet to come if it is in PAYLOAD, and, without DEFRAG, the
buffer (10_state.md R28). -/
structure Proceeds (s t : State) : Prop where
  moving : ¬ Stalled t
  buffer : s.cfg.defrag = false → t.cur.rbuf = s.cur.rbuf

theorem Proceeds.of_phase {s t : State} (hst : t.cur.st ≠ .payload) (hbuf : t.cur.rbuf = s.cur.rbuf) : Proceeds s t :=
  ⟨fun h => hst h.1, fun _ => hbuf⟩

theorem proceeds_resync (d : Diag) (s : State) : Proceeds s (resync d s) := .of_phase (by simp [resync]) rfl
theorem proceeds_openFrame (s : State) : Proceeds s (openFrame s) := .of_phase (by simp [openFrame]) rfl
theorem proceeds_closeFrame {s t : State} (h : t.cur.rbuf = s.cur.rbuf) : Proceeds s (closeFrame t) :=
  .of_phase (by simp [closeFrame]) h

theorem proceeds_headerDone {s t : State} (h : t.cur.rbuf = s.cur.rbuf) : Proceeds s (headerDone t) := by
  have hcur : (headerDone t).cur = { t.cur with
      ch := chanOf t.cur.hdr.h1, kind := t.cur.hdr.h2, rem := lenOf t.cur.hdr.h3, rlen := 0
      st := if lenOf t.cur.hdr.h3 = 0 then .footer else .payload } := by
    unfold headerDone
    dsimp only
    split <;> rfl
  refine ⟨?_, fun _ => by rw [hcur, h]⟩
  rw [Stalled, hcur]
  rintro ⟨hst, hrem⟩
  exact absurd ((if_pos hrem).symm.trans hst) (by decide)

theorem proceeds_countPayload {s t : State} (h : s.cfg.defrag = false → t.cur.rbuf = s.cur.rbuf) (k : Nat) :
    Proceeds s (countPayload k t) := by
  refine ⟨?_, h⟩
  rintro ⟨hst, hrem⟩
  exact absurd ((if_pos hrem).symm.trans hst) (by decide)

theorem acceptFrame_proceeds {s t : State} (h : t.cur.rbuf = s.cur.rbuf) : Yields (Proceeds s) (acceptFrame t) := by
  unfold acceptFrame
  split
  · exact .ok (proceeds_closeFrame h)
  · exact .ok (proceeds_closeFrame h)
  · split
    · split
      · exact .ok (proceeds_closeFrame (by simpa using h))
      · exact .error _ _
    · exact .ok (proceeds_closeFrame h)

theorem frameEnd_proceeds {s t : State} (h : t.cur.rbuf = s.cur.rbuf) : Yields (Proceeds s) (frameEnd t) := by
  unfold frameEnd
  split
  · split
    · exact .ok (.of_phase (by simp [resync]) h)
    · exact acceptFrame_proceeds h
  · exact .ok (.of_phase (by simp [resync]) h)

theorem storeHdr_yields {P : State → Prop} {s : State} {b : Byte} {k : State → Except Fault State}
    (h : ∀ hdr, Yields P (k (s.setCur { s.cur with hdr := hdr, cnt := s.cur.cnt + 1 }))) :
    Yields P (storeHdr b s k) := by
  unfold storeHdr
  split
  · exact h _
  · exact .error _ _

theorem payloadStep_proceeds (bs : Bytes) (s : State) : Yields (Proceeds s) (payloadStep bs s) := by
  have htake : Yields (fun t => s.cfg.defrag = false → t.cur.rbuf = s.cur.rbuf) (takePayload bs s) := by
    unfold takePayload
    split
    · split
      · next hd =>
        split
        · exact .ok fun h => absurd (h.symm.trans hd) (by decide)
        · exact .error _ _
      · exact .ok fun _ => by rw [dispatch_cur]
    · exact .ok fun _ => rfl
  unfold payloadStep
  split
  · next t ht => exact .ok (proceeds_countPayload (htake t ht) _)
  · exact .error _ _

theorem byteStep_proceeds (b : Byte) (s : State) : Yields (Proceeds s) (byteStep b s) := by
  unfold byteStep
  split
  · split
    · exact .ok (proceeds_openFrame s)
    · exact .ok (proceeds_resync _ s)
  · next hst =>
    split
    · exact .ok (.of_phase (by simp [hst]) rfl)
    · refine storeHdr_yields fun hdr => .ok ?_
      split
      · exact proceeds_headerDone rfl
      · exact .of_phase (by simp [hst]) rfl
  · exact payloadStep_proceeds [b] s
  · next hst =>
    refine storeHdr_yields fun hdr => ?_
    split
    · exact frameEnd_proceeds rfl
    · exact .ok (.of_phase (by simp [hst]) rfl)
  · next hst =>
    split
    · exact .ok (proceeds_openFrame s)
    · exact .ok (.of_phase (by simp [hst]) rfl)

/-! ### A call has moves enough (R150) -/

/-- How many moves an RX_CHUNK call can still make: for each octet a step and the return of the callback it may invoke,
the return of a callback that is running, a step that takes no octet with its callback, and the return. -/
def rxCost (rest : Bytes) (s : State) : Nat :=
  2 * rest.length + 1 + (if s.callback = none then 0 else 1) + (if Stalled s then 2 else 0)

theorem rxCost_le (rest : Bytes) (s : State) : rxCost rest s ≤ 2 * rest.length + 4 := by
  unfold rxCost
  split <;> split <;> omega

theorem rxCost_of_moving {s : State} (h : ¬ Stalled s) (rest : Bytes) : rxCost rest s ≤ 2 * rest.length + 2 := by
  unfold rxCost
  rw [if_neg h]
  split <;> omega

/-- A decoder step that leaves fewer octets, or was the one that takes none, leaves fewer moves. -/
theorem rxCost_step {s t : State} {rest rest' : Bytes} {c : Caller} {r : Except Fault State} {task : Task}
    (hcb : s.callback = none) (hr : Yields (Proceeds s) r)
    (hlt : rest'.length < rest.length ∨ rest'.length ≤ rest.length ∧ Stalled s)
    (h : onward (.rx c rest') r = .goesOn task t) : task = .rx c rest' ∧ rxCost rest' t < rxCost rest s := by
  cases r with
  | error f => cases h
  | ok u =>
    cases h
    refine ⟨rfl, (rxCost_of_moving (hr t rfl).moving rest').trans_lt ?_⟩
    unfold rxCost
    rw [if_pos hcb]
    rcases hlt with hlt | ⟨hle, hstall⟩
    · split <;> omega
    · rw [if_pos hstall]
      omega

theorem rxCost_move {s t : State} {rest : Bytes} {c : Caller} {task : Task}
    (h : moveTask (.rx c rest) s = .goesOn task t) : ∃ rest', task = .rx c rest' ∧ rxCost rest' t < rxCost rest s := by
  rw [moveTask] at h
  rcases rxMove_cases c rest s with ⟨hcb, e⟩ | ⟨_, _, e⟩ | ⟨hcb, hne, hst, e⟩ | ⟨hcb, hst, b, bs, rfl, e⟩ <;>
    rw [e] at h
  · cases h
    refine ⟨rest, rfl, ?_⟩
    have hstall : Stalled (s.setCallback none) ↔ Stalled s := Iff.rfl
    simp only [rxCost, if_neg hcb, State.setCallback_callback, if_pos, hstall]
    omega
  · cases h
  · refine ⟨_, rxCost_step hcb (payloadStep_proceeds _ s) ?_ h⟩
    have hpos := List.length_pos_iff.2 hne
    rw [List.length_drop]
    by_cases hrem : s.cur.rem = 0
    · exact .inr ⟨by omega, hst, hrem⟩
    · exact .inl (by omega)
  · exact ⟨_, rxCost_step hcb (byteStep_proceeds b s) (.inl (by simp)) h⟩

/-- With moves enough, how many there are makes no difference. -/
theorem runTask_rx_fuel {n m : Nat} {rest : Bytes} {s : State} (c : Caller) (hn : rxCost rest s ≤ n)
    (hm : rxCost rest s ≤ m) : runTask n (.rx c rest) s = runTask m (.rx c rest) s := by
  have hpos : 1 ≤ rxCost rest s := by unfold rxCost; omega
  induction n generalizing m rest s with
  | zero => omega
  | succ n ih =>
    obtain ⟨m, rfl⟩ : ∃ k, m = k + 1 := ⟨m - 1, by omega⟩
    rw [runTask, runTask]
    cases e : moveTask (.rx c rest) s with
    | blocked | fault f | returned u => rfl
    | goesOn task t =>
      obtain ⟨rest', rfl, hlt⟩ := rxCost_move e
      exact ih (by omega) (by omega) (by unfold rxCost; omega)

/-! ### A chunk, from its first octets on -/

/-- Octets that are taken in no more than two moves each leave RX_CHUNK of what follows them in the state that they
lead to. -/
theorem exec_rxChunk_append {s u : State} {pre bs : Bytes} {k : Nat} (hl : s.life = .alive) (hb : s.rxBusy = false)
    (h : ∀ n, runTask (n + k) (.rx s.caller (pre ++ bs)) (s.setBusy true) =
      runTask n (.rx s.caller bs) (u.setBusy true))
    (hu : Untouched s u) (hk : k ≤ 2 * pre.length) : exec (.rxChunk (pre ++ bs)) s = exec (.rxChunk bs) u := by
  have hfuel : 2 * (pre ++ bs).length + 4 = 2 * pre.length - k + (2 * bs.length + 4) + k := by
    rw [List.length_append]
    omega
  have hcost := rxCost_le bs (u.setBusy true)
  rw [exec_rxChunk hl hb, hfuel, h, exec_rxChunk (hu.life.trans hl) (hu.rxBusy.trans hb), hu.caller]
  exact runTask_rx_fuel _ (by omega) hcost

theorem exec_rxChunk_nil {s : State} (hl : s.life = .alive) (hb : s.rxBusy = false) (hcb : s.callback = none) :
    exec (.rxChunk []) s = .next (s.ret (.bool (atBoundary s.cur.st))) := by
  rw [exec_rxChunk hl hb, runTask_takes_all (Takes.refl (s.setBusy true)) hcb (by decide)]
  cases s
  cases hb
  rfl

/-- Settles O37: the call finds no octet and returns. -/
theorem emptyChunkChangesNothing : Obligations.EmptyChunkChangesNothing := by
  unfold Obligations.EmptyChunkChangesNothing
  intro s hl hb hcb
  rw [exec_rxChunk_nil hl hb hcb]
  rfl

end Sys2Proof.Machine
end

section
/-! PROOFS. The decoder's byte rules (42_decoder.md R151 to R160): what RX_CHUNK of an octet, a payload slice or a
trailer and more leaves, stated between two calls, the callback of a DISPATCH having returned. -/

namespace Sys2Proof.Machine

/-! ### A step that invokes no callback, and one that may -/

/-- A state that differs in what the decoder writes only. -/
theorem untouched_written (s : State) (cur : Cursor) (ack : Option Nat) (es : List Event) (ds : List Diag)
    (cb : Option Nat) :
    Untouched s { s with cur := cur, ackReg := ack, events := es, diags := ds, callback := cb } := by
  constructor <;> rfl

/-- The callback that a step may have invoked returns in one move. -/
theorem takes_callbackReturn (s : State) : ∃ k, k ≤ 1 ∧ Takes [] k s (s.setCallback none) := by
  by_cases hcb : s.callback = none
  · have hsame : s.setCallback none = s := by
      cases s
      cases hcb
      rfl
    exact ⟨0, Nat.zero_le 1, hsame.symm ▸ Takes.refl s⟩
  · exact ⟨1, le_rfl, takes_callback hcb⟩

section
variable {s u : State} (hl : s.life = .alive) (hb : s.rxBusy = false) (hcb : s.callback = none)
include hl hb hcb

/-- A byte step that invokes no callback. -/
theorem exec_rxChunk_byte {b : Byte} (hst : s.cur.st ≠ .payload)
    (h : byteStep b (s.setBusy true) = .ok (u.setBusy true)) (hu : Untouched s u) (bs : Bytes) :
    exec (.rxChunk (b :: bs)) s = exec (.rxChunk bs) u :=
  exec_rxChunk_append (pre := [b]) (k := 1) hl hb (fun n => takes_byte (by exact hcb) (by exact hst) h _ bs n) hu
    (Nat.le_succ 1)

end

/-- A decoder step that may have invoked a callback: `u` is the state after the callback's return. -/
theorem exec_rxChunk_step {s t u : State} {pre bs : Bytes} (hl : s.life = .alive) (hb : s.rxBusy = false)
    (hpre : pre ≠ [])
    (hmove : moveTask (.rx s.caller (pre ++ bs)) (s.setBusy true) = .goesOn (.rx s.caller bs) t)
    (ht : t.setCallback none = u.setBusy true) (hu : Untouched s u) :
    exec (.rxChunk (pre ++ bs)) s = exec (.rxChunk bs) u := by
  obtain ⟨k, hk, htakes⟩ := takes_callbackReturn t
  rw [ht] at htakes
  have hlen := List.length_pos_iff.2 hpre
  refine exec_rxChunk_append (k := k + 1) hl hb (fun n => ?_) hu (by omega)
  rw [← Nat.add_assoc, runTask_goesOn hmove]
  exact htakes _ bs n

/-! ### INIT and RECOVER (R151, R160) -/

theorem byteStep_noStart {s : State} {b : Byte} (hst : s.cur.st = .init) (hm : b ≠ Config.marker) :
    byteStep b s = .ok (resync (.noStart b) s) := by
  simp [byteStep, hst, hm]

theorem byteStep_skip {s : State} {b : Byte} (hst : s.cur.st = .recover) (hm : b ≠ Config.marker) :
    byteStep b s = .ok s := by
  simp [byteStep, hst, hm]

theorem byteStep_reopening {s : State} (hst : s.cur.st = .recover) : byteStep Config.marker s = .ok (openFrame s) := by
  simp [byteStep, hst]

/-- A marker before the address octet is absorbed (R152). -/
theorem byteStep_absorbed {s : State} (hst : s.cur.st = .header) (hcnt : s.cur.cnt = 1) :
    byteStep Config.marker s = .ok s := by
  simp [byteStep, hst, hcnt]

section
variable {s : State} (hl : s.life = .alive) (hb : s.rxBusy = false) (hcb : s.callback = none)
include hl hb hcb

theorem exec_rxChunk_absorbed (hst : s.cur.st = .header) (hcnt : s.cur.cnt = 1) (bs : Bytes) :
    exec (.rxChunk (0xF9 :: bs)) s = exec (.rxChunk bs) s :=
  exec_rxChunk_byte hl hb hcb (by simp [hst]) (byteStep_absorbed (s := s.setBusy true) hst hcnt) (Untouched.refl s) bs

/-- A marker where a frame may begin: the decoder is in HEADER, before the address octet. -/
theorem exec_rxChunk_marker (hready : readyForFrame s.cur) (bs : Bytes) :
    exec (.rxChunk (0xF9 :: bs)) s = exec (.rxChunk bs) { s with cur := { s.cur with st := .header, cnt := 1 } } := by
  rcases hready with hst | hst | ⟨hst, hcnt⟩
  · exact exec_rxChunk_byte hl hb hcb (by simp [hst])
      (byteStep_opening (s := s.setBusy true) hst) (untouched_openFrame s) bs
  · exact exec_rxChunk_byte hl hb hcb (by simp [hst])
      (byteStep_reopening (s := s.setBusy true) hst) (untouched_openFrame s) bs
  · have hsame : { s with cur := { s.cur with st := .header, cnt := 1 } } = s := by rw [← hst, ← hcnt]
    rw [hsame]
    exact exec_rxChunk_absorbed hl hb hcb hst hcnt bs

/-- RECOVER skips what is no marker. -/
theorem exec_rxChunk_skip (hst : s.cur.st = .recover) {xs : Bytes} (hxs : (0xF9 : Byte) ∉ xs) (bs : Bytes) :
    exec (.rxChunk (xs ++ bs)) s = exec (.rxChunk bs) s := by
  induction xs with
  | nil => rfl
  | cons x xs ih =>
    obtain ⟨hx, hxs⟩ := not_or.1 (mt List.mem_cons.2 hxs)
    rw [List.cons_append, exec_rxChunk_byte hl hb hcb (by simp [hst])
      (byteStep_skip (s := s.setBusy true) hst (Ne.symm hx)) (Untouched.refl s) (xs ++ bs), ih hxs]

end

/-- Settles O29: the two branches of INIT. -/
theorem initTakesAMarkerOrRecovers : Obligations.InitTakesAMarkerOrRecovers := by
  unfold Obligations.InitTakesAMarkerOrRecovers
  intro b bs s hl hb hcb hst
  refine ⟨?_, fun hm => ?_⟩
  · rintro rfl
    exact exec_rxChunk_marker hl hb hcb (.inl hst) bs
  · exact exec_rxChunk_byte hl hb hcb (by simp [hst])
      (byteStep_noStart (s := s.setBusy true) hst hm) (untouched_resync _ s) bs

/-- Settles O35: octets are skipped up to the marker, which is where a frame may begin. -/
theorem recoverScansForMarker : Obligations.RecoverScansForMarker := by
  unfold Obligations.RecoverScansForMarker
  intro xs bs s hl hb hcb hst hxs
  refine ⟨exec_rxChunk_skip hl hb hcb hst hxs bs, ?_⟩
  rw [exec_rxChunk_skip hl hb hcb hst hxs, exec_rxChunk_marker hl hb hcb (.inr (.inl hst))]

/-! ### The route of a frame (R154) -/

section
variable {cfg : Cfg} {a c l : Byte}

theorem routeOf_eq_drop_iff : routeOf cfg a c l = .drop ↔ cfg.nData.val < chanOf a := by
  unfold routeOf known
  split
  · next hk => split <;> simpa using hk
  · next hk => simpa using hk

theorem routeOf_eq_ack_iff : routeOf cfg a c l = .ack ↔ chanOf a ≤ cfg.nData.val ∧ c = cfg.ackCtrl ∧ lenOf l = 0 := by
  unfold routeOf known
  split
  · next hk => split <;> simp_all
  · next hk => simp_all

theorem routeOf_eq_data_iff :
    routeOf cfg a c l = .data ↔ chanOf a ≤ cfg.nData.val ∧ ¬ (c = cfg.ackCtrl ∧ lenOf l = 0) := by
  unfold routeOf known
  split
  · next hk => split <;> simp_all
  · next hk => simp_all

end

/-! ### HEADER (R152, R153) -/

theorem headerDone_eq (s : State) : headerDone s = { s with
    cur := { s.cur with
      ch := chanOf s.cur.hdr.h1, kind := s.cur.hdr.h2, rem := lenOf s.cur.hdr.h3, rlen := 0
      st := if lenOf s.cur.hdr.h3 = 0 then .footer else .payload }
    diags := s.diags ++
      if s.cfg.nData.val < chanOf s.cur.hdr.h1 then [.unknownChannel (chanOf s.cur.hdr.h1)] else [] } := by
  have hdrop : route s = .drop ↔ s.cfg.nData.val < chanOf s.cur.hdr.h1 := routeOf_eq_drop_iff
  unfold headerDone
  by_cases h : s.cfg.nData.val < chanOf s.cur.hdr.h1
  · simp only [if_pos h, if_pos (hdrop.2 h)]
    rfl
  · simp only [if_neg h, if_neg (mt hdrop.1 h), List.append_nil]
    rfl

section
variable {s : State} (hl : s.life = .alive) (hb : s.rxBusy = false) (hcb : s.callback = none)
  (hst : s.cur.st = .header)
include hl hb hcb hst

theorem exec_rxChunk_address (hcnt : s.cur.cnt = 1) {a : Byte} (ha : a ≠ Config.marker) (bs : Bytes) :
    exec (.rxChunk (a :: bs)) s =
      exec (.rxChunk bs) { s with cur := { s.cur with hdr := { s.cur.hdr with h1 := a }, cnt := 2 } } :=
  exec_rxChunk_byte hl hb hcb (by simp [hst])
    (byteStep_address (s := s.setBusy true) a hst hcnt ha) (untouched_setCur s _) bs

theorem exec_rxChunk_control (hcnt : s.cur.cnt = 2) (c : Byte) (bs : Bytes) :
    exec (.rxChunk (c :: bs)) s =
      exec (.rxChunk bs) { s with cur := { s.cur with hdr := { s.cur.hdr with h2 := c }, cnt := 3 } } :=
  exec_rxChunk_byte hl hb hcb (by simp [hst])
    (byteStep_control (s := s.setBusy true) c hst hcnt) (untouched_setCur s _) bs

theorem exec_rxChunk_length (hcnt : s.cur.cnt = 3) (l : Byte) (bs : Bytes) :
    exec (.rxChunk (l :: bs)) s = exec (.rxChunk bs) { s with
      cur := { s.cur with
        hdr := { s.cur.hdr with h3 := l }, cnt := 4, ch := chanOf s.cur.hdr.h1, kind := s.cur.hdr.h2
        rem := lenOf l, rlen := 0, st := if lenOf l = 0 then .footer else .payload }
      diags := s.diags ++
        if s.cfg.nData.val < chanOf s.cur.hdr.h1 then [.unknownChannel (chanOf s.cur.hdr.h1)] else [] } :=
  exec_rxChunk_byte hl hb hcb (by simp [hst])
    ((byteStep_length (s := s.setBusy true) l (by exact hst) (by exact hcnt)).trans
      (congrArg Except.ok (headerDone_eq _)))
    (untouched_written s _ _ _ _ _) bs

end

/-- Settles O30: the place in the header is the octet's. -/
theorem headerStoresOctets : Obligations.HeaderStoresOctets := by
  unfold Obligations.HeaderStoresOctets
  intro b bs s hl hb hcb hst
  refine ⟨fun hcnt hm => ?_, fun hcnt hm => ?_, fun hcnt => ?_⟩
  · subst hm
    exact exec_rxChunk_absorbed hl hb hcb hst hcnt bs
  · exact exec_rxChunk_address hl hb hcb hst hcnt hm bs
  · exact exec_rxChunk_control hl hb hcb hst hcnt b bs

/-- Settles O31: the octet is stored and the header is complete. -/
theorem headerCompletes : Obligations.HeaderCompletes := by
  unfold Obligations.HeaderCompletes
  intro l bs s hl hb hcb hst hcnt
  rw [exec_rxChunk_length hl hb hcb hst hcnt, lenOf_eq_div, chanOf_eq_div]

/-! ### PAYLOAD (R155) -/

/-- What of the octets of a slice goes into the reassembly buffer. -/
def State.gathered (s : State) (bs : Bytes) : Bytes := if route s = .data ∧ s.cfg.defrag = true then bs else []

/-- What of the octets of a slice goes to the callback at once. -/
def State.handed (s : State) (bs : Bytes) : Bytes := if route s = .data ∧ s.cfg.defrag = false then bs else []

section
variable {s : State} (bs : Bytes)

theorem gathered_gathering (hroute : route s = .data) (hd : s.cfg.defrag = true) : s.gathered bs = bs :=
  if_pos ⟨hroute, hd⟩

theorem gathered_slicing (hd : s.cfg.defrag = false) : s.gathered bs = [] := if_neg (by simp [hd])

theorem gathered_discarding (hroute : route s ≠ .data) : s.gathered bs = [] := if_neg fun h => hroute h.1

theorem handed_gathering (hd : s.cfg.defrag = true) : s.handed bs = [] := if_neg (by simp [hd])

theorem handed_slicing (hroute : route s = .data) (hd : s.cfg.defrag = false) : s.handed bs = bs :=
  if_pos ⟨hroute, hd⟩

theorem handed_discarding (hroute : route s ≠ .data) : s.handed bs = [] := if_neg fun h => hroute h.1
end

/-- Octets handed to a channel, by an engine whose callback has returned (43_registry.md R201). -/
def State.handedOn (s : State) (ch : Nat) (bs : Bytes) : State :=
  { s with events := s.events ++ deliverEvents s ch bs, diags := s.diags ++ dropDiags s ch bs }

/-- The cursor after a slice of the payload, of which `g` has gone into the buffer. -/
def Cursor.afterSlice (cur : Cursor) (k : Nat) (g : Bytes) : Cursor :=
  { cur with
    rbuf := cur.rbuf.writeBytes cur.rlen g, rlen := cur.rlen + g.length, rem := cur.rem - k
    st := if cur.rem - k = 0 then .footer else cur.st }

/-- After a payload step, and the return of the callback it may have invoked. -/
def State.sliceTaken (s : State) (bs : Bytes) : State :=
  (s.handedOn s.cur.ch (s.handed bs)).setCur (s.cur.afterSlice bs.length (s.gathered bs))

@[simp] theorem deliverEvents_nil (s : State) (ch : Nat) : deliverEvents s ch [] = [] := rfl

@[simp] theorem dropDiags_nil (s : State) (ch : Nat) : dropDiags s ch [] = [] := rfl

theorem State.handedOn_nil (s : State) (ch : Nat) : s.handedOn ch [] = s := by
  simp [State.handedOn, deliverEvents_nil, dropDiags_nil]

/-- A DISPATCH inside the decoder, after its callback has returned. -/
theorem dispatch_returned {s : State} {ch : Nat} {bs : Bytes} (hk : known s.cfg ch = true) (hcb : s.callback = none)
    (hne : bs ≠ []) : (dispatch ch bs s).setCallback none = s.handedOn ch bs := by
  rcases dispatch_cases ch bs s with ⟨hk', _⟩ | ⟨_, hnone, e⟩ | ⟨_, h, hsome, e⟩
  · exact absurd (hk'.symm.trans hk) (by decide)
  · rw [e]
    simp [State.handedOn, deliverEvents, dropDiags, hne, hnone, State.setCallback, State.note, hcb]
  · rw [e]
    simp [State.handedOn, deliverEvents, dropDiags, hne, hsome, State.setCallback, State.emit, hcb]

theorem known_of_route_data {s : State} (h : route s = .data) : known s.cfg (chanOf s.cur.hdr.h1) = true :=
  decide_eq_true (routeOf_eq_data_iff.1 h).1

/-- A payload step of a frame whose header is in `hdr`, of octets that fit into the buffer. -/
theorem payloadStep_returned {s : State} {bs : Bytes} (hcb : s.callback = none) (hch : s.cur.ch = chanOf s.cur.hdr.h1)
    (hfit : s.cur.rlen + (s.gathered bs).length ≤ 127) (hne : bs ≠ []) :
    ∃ t, payloadStep bs s = .ok t ∧ t.setCallback none = s.sliceTaken bs := by
  unfold State.sliceTaken payloadStep takePayload
  by_cases hroute : route s = .data
  · cases hd : s.cfg.defrag with
    | true =>
      rw [gathered_gathering bs hroute hd] at hfit
      have hm : memWrite s.cur.rbuf s.cur.rlen bs = some (s.cur.rbuf.writeBytes s.cur.rlen bs) := if_pos hfit
      rw [if_pos hroute, if_pos rfl, hm, gathered_gathering bs hroute hd, handed_gathering bs hd, State.handedOn_nil]
      refine ⟨_, rfl, ?_⟩
      simp [countPayload, State.setCur, State.setCallback, Cursor.afterSlice, hcb]
    | false =>
      have hk : known s.cfg s.cur.ch = true := hch ▸ known_of_route_data hroute
      rw [if_pos hroute, if_neg (by decide), gathered_slicing bs hd, handed_slicing bs hroute hd,
        ← dispatch_returned hk hcb hne]
      refine ⟨_, rfl, ?_⟩
      simp [countPayload, State.setCur, State.setCallback, Cursor.afterSlice, Memory.writeBytes]
  · rw [if_neg hroute, gathered_discarding bs hroute, handed_discarding bs hroute, State.handedOn_nil]
    refine ⟨_, rfl, ?_⟩
    simp [countPayload, State.setCur, State.setCallback, Cursor.afterSlice, Memory.writeBytes, hcb]

theorem moveTask_byte {s t : State} {b : Byte} (hcb : s.callback = none) (hst : s.cur.st ≠ .payload)
    (h : byteStep b s = .ok t) (c : Caller) (rest : Bytes) :
    moveTask (.rx c (b :: rest)) s = .goesOn (.rx c rest) t := by
  simp [moveTask, rxMove, hcb, hst, h, onward]

theorem moveTask_slice {s : State} {bs rest : Bytes} (hcb : s.callback = none) (hst : s.cur.st = .payload)
    (hne : bs ≠ []) (hmin : min s.cur.rem (bs ++ rest).length = bs.length) (c : Caller) :
    moveTask (.rx c (bs ++ rest)) s = onward (.rx c rest) (payloadStep bs s) := by
  rcases rxMove_cases c (bs ++ rest) s with ⟨h, _⟩ | ⟨_, h, _⟩ | ⟨_, _, _, e⟩ | ⟨_, h, _⟩
  · exact absurd hcb h
  · exact absurd (List.append_eq_nil_iff.1 h).1 hne
  · rw [moveTask, e, hmin, List.take_left, List.drop_left]
  · exact absurd hst h

theorem untouched_sliceTaken (bs : Bytes) (s : State) : Untouched s (s.sliceTaken bs) := by constructor <;> rfl

/-- The slice of a payload that a chunk holds: all that the frame lacks, or all that the chunk has. -/
theorem exec_rxChunk_slice {s : State} (hl : s.life = .alive) (hb : s.rxBusy = false) (hcb : s.callback = none)
    (hst : s.cur.st = .payload) (hch : s.cur.ch = chanOf s.cur.hdr.h1) {bs rest : Bytes}
    (hfit : s.cur.rlen + (s.gathered bs).length ≤ 127) (hne : bs ≠ [])
    (hmin : min s.cur.rem (bs ++ rest).length = bs.length) :
    exec (.rxChunk (bs ++ rest)) s = exec (.rxChunk rest) (s.sliceTaken bs) := by
  obtain ⟨t, hstep, ht⟩ := payloadStep_returned (s := s.setBusy true) hcb hch hfit hne
  have hmove := moveTask_slice (s := s.setBusy true) hcb hst hne hmin s.caller
  rw [hstep] at hmove
  exact exec_rxChunk_step hl hb hne hmove ht (untouched_sliceTaken bs s)

theorem CursorInv.payloadInv {cfg : Cfg} {c : Cursor} (h : CursorInv cfg c) (hst : c.st = .payload) :
    PayloadInv cfg c := h.2.2.1 hst

theorem CursorInv.footerInv {cfg : Cfg} {c : Cursor} (h : CursorInv cfg c) (hst : c.st = .footer) :
    FooterInv cfg c := h.2.2.2.1 hst

/-- From a cursor that meets its invariants, a slice fits into the buffer (10_state.md R29). -/
theorem gathered_fits {s : State} (h : PayloadInv s.cfg s.cur) {bs : Bytes} (hlen : bs.length ≤ s.cur.rem) :
    s.cur.rlen + (s.gathered bs).length ≤ 127 := by
  obtain ⟨-, -, -, -, hshare⟩ := h
  have hl3 := lenOf_le s.cur.hdr.h3
  by_cases hg : Gathers s.cfg s.cur.hdr
  · rw [if_pos hg] at hshare
    rw [gathered_gathering bs hg.2 hg.1]
    omega
  · have hnone : s.gathered bs = [] := if_neg fun h => hg h.symm
    rw [if_neg hg] at hshare
    rw [hnone, hshare]
    decide

/-! ### What a call leaves of the state before it -/

/-- The decoder and the return of its call leave what only other calls write. -/
theorem decoderFrame_ret {s u : State} (h : Untouched s u) (hcb : u.callback = s.callback) (v : Value) :
    DecoderFrame s (u.ret v) :=
  ⟨h.cfg, h.cb, h.opened, h.txlock, h.life, h.rxBusy, hcb, h.inflight, h.portCalls, h.wire, h.caller, h.replies,
    h.agenda, h.handshake, h.openResult, h.draws⟩

/-- Settles O32: the slice is the whole chunk, so after its payload step and the callback's return the call returns. -/
theorem payloadSliceIsTaken : Obligations.PayloadSliceIsTaken := by
  unfold Obligations.PayloadSliceIsTaken
  intro bs s hinv hl hb hst hne hlen
  obtain ⟨hcur, hcalls, -, -⟩ := hinv
  have hcb := callback_eq_none hcalls hb
  obtain ⟨-, -, -, hwf, -⟩ := hcur.ranges
  have hpay := hcur.payloadInv hst
  obtain ⟨-, -, hch, -, -⟩ := id hpay
  have htaken := exec_rxChunk_slice (rest := []) hl hb hcb hst hch (gathered_fits hpay hlen) hne (by simpa using hlen)
  rw [List.append_nil, exec_rxChunk_nil (by exact hl) (by exact hb) (by exact hcb)] at htaken
  have hzero : s.cur.rem - bs.length = 0 ↔ s.cur.rem = bs.length := by omega
  have hphase : (s.sliceTaken bs).cur.st = if s.cur.rem = bs.length then .footer else .payload := by
    show (if s.cur.rem - bs.length = 0 then Phase.footer else s.cur.st) = _
    simp only [hzero, hst]
  have hboundary : atBoundary (s.sliceTaken bs).cur.st = false := by
    rw [hphase]
    split <;> rfl
  rw [hboundary] at htaken
  refine ⟨_, htaken, decoderFrame_ret (untouched_sliceTaken bs s) rfl _, rfl, rfl, rfl, hphase, rfl, rfl, rfl, rfl,
    fun hroute hd => ?_, fun hroute hd => ?_, fun hroute => ?_⟩
  · rw [State.sliceTaken, gathered_gathering bs hroute hd, handed_gathering bs hd, State.handedOn_nil]
    exact ⟨rfl, rfl, rfl, Memory.read_writeBytes s.cur.rlen bs hwf⟩
  · rw [State.sliceTaken, gathered_slicing bs hd, handed_slicing bs hroute hd]
    exact ⟨rfl, rfl, rfl, rfl⟩
  · rw [State.sliceTaken, gathered_discarding bs hroute, handed_discarding bs hroute, State.handedOn_nil]
    exact ⟨rfl, rfl, rfl, rfl⟩

/-! ### FOOTER (R156 to R159) -/

/-- The cursor after a frame's last octet `e`. -/
def Cursor.ended (cur : Cursor) (e : Byte) (st : Phase) : Cursor :=
  { cur with hdr := { cur.hdr with h5 := e }, st := st, cnt := 0, rlen := 0 }

/-- Where `FrameEnd()` is made, inside the call, with the closing octet `e` stored. -/
def State.atFrameEnd (s : State) (e : Byte) : State :=
  (s.setBusy true).setCur { s.cur with hdr := { s.cur.hdr with h5 := e }, cnt := 6 }

section
variable {s : State}

theorem frameEnd_noEnd (h : s.cur.hdr.h5 ≠ Config.marker) : frameEnd s = .ok (resync (.noEnd s.cur.hdr.h5) s) :=
  if_neg h

section
variable (hend : s.cur.hdr.h5 = Config.marker)
include hend

theorem frameEnd_mismatch (hv : s.cfg.verifyFcs = true)
    (hf : s.cur.hdr.h4 ≠ fcsOf s.cur.hdr.h1 s.cur.hdr.h2 s.cur.hdr.h3) :
    frameEnd s = .ok (resync (.fcsMismatch s.cur.hdr.h4) s) := by
  simp [frameEnd, hend, hv, fcsCheck, hf]

theorem frameEnd_accepts
    (hf : s.cfg.verifyFcs = false ∨ s.cur.hdr.h4 = fcsOf s.cur.hdr.h1 s.cur.hdr.h2 s.cur.hdr.h3) :
    frameEnd s = acceptFrame s := by
  rcases hf with hf | hf <;> simp [frameEnd, hend, fcsCheck, hf]
end

theorem frameEnd_atFrameEnd
    (hf : s.cfg.verifyFcs = false ∨ s.cur.hdr.h4 = fcsOf s.cur.hdr.h1 s.cur.hdr.h2 s.cur.hdr.h3) :
    frameEnd (s.atFrameEnd 0xF9) = acceptFrame (s.atFrameEnd 0xF9) :=
  frameEnd_accepts (s := s.atFrameEnd 0xF9) rfl hf

theorem acceptFrame_ack (h : route s = .ack) :
    acceptFrame s = .ok (closeFrame ((s.setAck (some s.cur.ch)).emit (.ack s.cur.ch))) := by
  simp [acceptFrame, h]

/-- A frame that has no effect of its own: dropped, without payload, or delivered slice by slice. -/
theorem acceptFrame_quiet (h : route s = .drop ∨ route s = .data ∧ (s.cfg.defrag = false ∨ s.cur.rlen = 0)) :
    acceptFrame s = .ok (closeFrame s) := by
  rcases h with h | ⟨h, hd | h0⟩ <;> simp [acceptFrame, *]

theorem acceptFrame_delivers (h : route s = .data) (hd : s.cfg.defrag = true) (hpos : 0 < s.cur.rlen) {p : Bytes}
    (hp : memRead s.cur.rbuf s.cur.rlen = some p) : acceptFrame s = .ok (closeFrame (dispatch s.cur.ch p s)) := by
  simp [acceptFrame, h, hd, hpos, hp]
end

section
variable {s : State} (hl : s.life = .alive) (hb : s.rxBusy = false) (hcb : s.callback = none)
  (hst : s.cur.st = .footer)
include hl hb hcb hst

theorem exec_rxChunk_fcs (hcnt : s.cur.cnt = 4) (f : Byte) (bs : Bytes) :
    exec (.rxChunk (f :: bs)) s =
      exec (.rxChunk bs) { s with cur := { s.cur with hdr := { s.cur.hdr with h4 := f }, cnt := 5 } } :=
  exec_rxChunk_byte hl hb hcb (by simp [hst])
      (byteStep_fcs (s := s.setBusy true) f hst hcnt) (untouched_setCur s _) bs

variable (hcnt : s.cur.cnt = 5)
include hcnt

/-- The last octet of a frame whose end invokes no callback. -/
theorem exec_rxChunk_ending {u : State} {e : Byte}
    (h : frameEnd (s.atFrameEnd e) = .ok (u.setBusy true)) (hu : Untouched s u) (bs : Bytes) :
    exec (.rxChunk (e :: bs)) s = exec (.rxChunk bs) u :=
  exec_rxChunk_byte hl hb hcb (by simp [hst]) ((byteStep_closing (s := s.setBusy true) e hst hcnt).trans h) hu bs

theorem exec_rxChunk_mismatch (hv : s.cfg.verifyFcs = true)
    (hf : s.cur.hdr.h4 ≠ fcsOf s.cur.hdr.h1 s.cur.hdr.h2 s.cur.hdr.h3) (bs : Bytes) :
    exec (.rxChunk (0xF9 :: bs)) s = exec (.rxChunk bs) { s with
      cur := s.cur.ended 0xF9 .recover, diags := s.diags ++ [.fcsMismatch s.cur.hdr.h4] } :=
  exec_rxChunk_ending hl hb hcb hst hcnt (frameEnd_mismatch (s := s.atFrameEnd 0xF9) rfl hv hf)
    (untouched_written s _ _ _ _ _) bs

variable (hf : s.cfg.verifyFcs = false ∨ s.cur.hdr.h4 = fcsOf s.cur.hdr.h1 s.cur.hdr.h2 s.cur.hdr.h3)
include hf

theorem exec_rxChunk_ack (h : route s = .ack) (bs : Bytes) :
    exec (.rxChunk (0xF9 :: bs)) s = exec (.rxChunk bs) { s with
      cur := s.cur.ended 0xF9 .init, ackReg := some s.cur.ch, events := s.events ++ [.ack s.cur.ch] } :=
  exec_rxChunk_ending hl hb hcb hst hcnt
    (by exact (frameEnd_atFrameEnd hf).trans (acceptFrame_ack (s := s.atFrameEnd 0xF9) h))
    (untouched_written s _ _ _ _ _) bs

theorem exec_rxChunk_quiet (h : route s = .drop ∨ route s = .data ∧ (s.cfg.defrag = false ∨ s.cur.rlen = 0))
    (bs : Bytes) :
    exec (.rxChunk (0xF9 :: bs)) s = exec (.rxChunk bs) { s with cur := s.cur.ended 0xF9 .init } :=
  exec_rxChunk_ending hl hb hcb hst hcnt
    (by exact (frameEnd_atFrameEnd hf).trans (acceptFrame_quiet (s := s.atFrameEnd 0xF9) h))
    (untouched_written s _ _ _ _ _) bs

/-- The end of a frame that is delivered with DEFRAG: what was gathered, if anything, is read back and handed on. -/
theorem exec_rxChunk_delivers (h : route s = .data) (hch : s.cur.ch = chanOf s.cur.hdr.h1) (hd : s.cfg.defrag = true)
    {p : Bytes} (hp : memRead s.cur.rbuf s.cur.rlen = some p) (hlen : p.length = s.cur.rlen) (bs : Bytes) :
    exec (.rxChunk (0xF9 :: bs)) s =
      exec (.rxChunk bs) ((s.handedOn s.cur.ch p).setCur (s.cur.ended 0xF9 .init)) := by
  by_cases hne : p = []
  · have h0 : s.cur.rlen = 0 := by rw [← hlen, hne, List.length_nil]
    rw [exec_rxChunk_quiet hl hb hcb hst hcnt hf (.inr ⟨h, .inr h0⟩), hne, State.handedOn_nil]
    rfl
  · have hpos : 0 < s.cur.rlen := hlen ▸ List.length_pos_iff.2 hne
    have hk : known s.cfg s.cur.ch = true := hch ▸ known_of_route_data h
    have hstep : byteStep 0xF9 (s.setBusy true) = .ok (closeFrame (dispatch s.cur.ch p (s.atFrameEnd 0xF9))) :=
      (byteStep_closing (s := s.setBusy true) 0xF9 hst hcnt).trans
        ((frameEnd_atFrameEnd hf).trans (acceptFrame_delivers (s := s.atFrameEnd 0xF9) h hd hpos hp))
    have hmove := moveTask_byte (s := s.setBusy true) hcb (by simp [hst]) hstep s.caller bs
    refine exec_rxChunk_step (pre := [0xF9]) hl hb (List.cons_ne_nil _ _) hmove ?_ (untouched_written s _ _ _ _ _)
    exact congrArg closeFrame (dispatch_returned (s := s.atFrameEnd 0xF9) hk hcb hne)

end

theorem memRead_spec (m : Memory) {n : Nat} (hn : n ≤ 127) :
    ∃ p, memRead m n = some p ∧ p.length = n ∧ ∀ a, a < n → p[a]? = some (Memory.read m a) := by
  refine ⟨m.readBytes 0 n, if_pos hn, by simp [Memory.readBytes], fun a ha => ?_⟩
  simp [Memory.readBytes, ha]

/-- Settles O33: the FCS octet, and the four ends of a frame that has its closing marker. -/
theorem footerTakesTheTrailer : Obligations.FooterTakesTheTrailer := by
  unfold Obligations.FooterTakesTheTrailer
  refine ⟨fun b bs s hl hb hcb hst hcnt => exec_rxChunk_fcs hl hb hcb hst hcnt b bs, ?_⟩
  intro bs s hinv hl hb hcb hst hcnt
  obtain ⟨hcur, -, -, -⟩ := hinv
  obtain ⟨hrlen, -⟩ := hcur.ranges
  obtain ⟨-, -, -, hch, -, -⟩ := hcur.footerInv hst
  refine ⟨fun hv hf => exec_rxChunk_mismatch hl hb hcb hst hcnt hv hf bs, fun hf =>
    ⟨fun h => exec_rxChunk_ack hl hb hcb hst hcnt hf h bs, fun h hd _ => ?_,
      fun h => exec_rxChunk_quiet hl hb hcb hst hcnt hf h bs⟩⟩
  obtain ⟨p, hp, hlen, hread⟩ := memRead_spec s.cur.rbuf hrlen
  exact ⟨p, hp, hlen, hread, exec_rxChunk_delivers hl hb hcb hst hcnt hf h hch hd hp hlen bs⟩

/-- Settles O34: the end marker is tested before the FCS and the route. -/
theorem badEndMarkerRecovers : Obligations.BadEndMarkerRecovers := by
  unfold Obligations.BadEndMarkerRecovers
  intro b bs s hl hb hcb hst hcnt hm
  exact exec_rxChunk_ending hl hb hcb hst hcnt (frameEnd_noEnd (s := s.atFrameEnd b) hm)
    (untouched_written s _ _ _ _ _) bs

end Sys2Proof.Machine
end

section
/-! PROOFS. A whole frame in one chunk (42_decoder.md R153 to R159, R167): from where a frame may begin, its octets up
to the closing marker leave one state, which the FCS and the route send on. -/

namespace Sys2Proof.Machine

/-! ### The header (R152, R153) -/

/-- What a complete header notes: an unknown channel (R153). -/
def headerDiags (cfg : Cfg) (ch : Nat) : List Diag := if cfg.nData.val < ch then [.unknownChannel ch] else []

theorem headerDiags_unknown {cfg : Cfg} {ch : Nat} (h : cfg.nData.val < ch) :
    headerDiags cfg ch = [.unknownChannel ch] :=
  if_pos h

theorem headerDiags_known {cfg : Cfg} {ch : Nat} (h : ch ≤ cfg.nData.val) : headerDiags cfg ch = [] :=
  if_neg (by omega)

/-- After the header octets A, C, L of a frame. -/
def State.headerTaken (s : State) (a c l : Byte) : State :=
  { s with
    cur := { s.cur with
      st := if lenOf l = 0 then .footer else .payload, cnt := 4, hdr := { s.cur.hdr with h1 := a, h2 := c, h3 := l }
      ch := chanOf a, kind := c, rem := lenOf l, rlen := 0 }
    diags := s.diags ++ headerDiags s.cfg (chanOf a) }

theorem sliceTaken_nil {s : State} (hst : s.cur.st = .footer) (hrem : s.cur.rem = 0) : s.sliceTaken [] = s := by
  have hg : s.gathered [] = [] := ite_self _
  have hh : s.handed [] = [] := ite_self _
  rw [State.sliceTaken, hg, hh, State.handedOn_nil]
  have hcur : s.cur.afterSlice 0 [] = s.cur := by
    rw [Cursor.afterSlice, if_pos (by omega), ← hst]
    rfl
  exact congrArg s.setCur hcur

/-! ### Where the payload goes (R154, R155) -/

/-- What of a frame's payload is gathered, once its header is taken: all of it on a known channel with DEFRAG. -/
def gatheredOf (cfg : Cfg) (f : Frame) : Bytes :=
  if f.ch.toNat ≤ cfg.nData.val ∧ cfg.defrag = true then f.payload else []

/-- What of a frame's payload is handed on before the trailer: all of it on a known channel without DEFRAG. -/
def handedOf (cfg : Cfg) (f : Frame) : Bytes :=
  if f.ch.toNat ≤ cfg.nData.val ∧ cfg.defrag = false then f.payload else []

section
variable {cfg : Cfg} {f : Frame}

theorem handedOf_unknown (h : cfg.nData.val < f.ch.toNat) : handedOf cfg f = [] :=
  if_neg fun hk => absurd hk.1 (by omega)

theorem handedOf_empty (h : f.payload = []) : handedOf cfg f = [] := by rw [handedOf, h, ite_self]

theorem handedOf_gathering (h : cfg.defrag = true) : handedOf cfg f = [] := if_neg (by simp [h])

theorem handedOf_slicing (hk : f.ch.toNat ≤ cfg.nData.val) (h : cfg.defrag = false) : handedOf cfg f = f.payload :=
  if_pos ⟨hk, h⟩

theorem gatheredOf_gathering (hk : f.ch.toNat ≤ cfg.nData.val) (h : cfg.defrag = true) :
    gatheredOf cfg f = f.payload := if_pos ⟨hk, h⟩

theorem gatheredOf_slicing (h : cfg.defrag = false) : gatheredOf cfg f = [] := if_neg (by simp [h])

theorem gatheredOf_unknown (h : cfg.nData.val < f.ch.toNat) : gatheredOf cfg f = [] :=
  if_neg fun hk => absurd hk.1 (by omega)

theorem gatheredOf_empty (h : f.payload = []) : gatheredOf cfg f = [] := by rw [gatheredOf, h, ite_self]
end

section
variable {f : Frame} (hok : f.ok = true) (s : State) (c : Byte)
include hok

theorem lenOf_eq_zero_iff : lenOf (lenByte f) = 0 ↔ f.payload = [] := by
  rw [lenOf_lenByte f (Frame.ok_iff.1 hok).1, List.length_eq_zero_iff]

/-- The route of a frame on a known channel is DATA, unless it has no payload. -/
theorem route_headerTaken_data (hne : f.payload ≠ []) :
    route (s.headerTaken (addrByte f) c (lenByte f)) = .data ↔ f.ch.toNat ≤ s.cfg.nData.val := by
  have h : routeOf s.cfg (addrByte f) c (lenByte f) = .data ↔ _ := routeOf_eq_data_iff
  rw [chanOf_addrByte, lenOf_eq_zero_iff hok] at h
  exact h.trans (by simp [hne])

theorem gathered_headerTaken :
    (s.headerTaken (addrByte f) c (lenByte f)).gathered f.payload = gatheredOf s.cfg f := by
  unfold State.gathered gatheredOf
  by_cases hne : f.payload = []
  · rw [hne, ite_self, ite_self]
  · simp only [route_headerTaken_data hok s c hne]
    rfl

theorem handed_headerTaken :
    (s.headerTaken (addrByte f) c (lenByte f)).handed f.payload = handedOf s.cfg f := by
  unfold State.handed handedOf
  by_cases hne : f.payload = []
  · rw [hne, ite_self, ite_self]
  · simp only [route_headerTaken_data hok s c hne]
    rfl

end

/-! ### A frame up to its closing marker -/

/-- Before the closing marker of a frame. -/
def State.beforeEnd (s : State) (c : Byte) (f : Frame) : State :=
  { s with
    cur := {
      st := .footer, cnt := 5, hdr := ⟨s.cur.hdr.h0, addrByte f, c, lenByte f, f.fcs, s.cur.hdr.h5⟩
      ch := f.ch.toNat, kind := c, rem := 0
      rbuf := s.cur.rbuf.writeBytes 0 (gatheredOf s.cfg f), rlen := (gatheredOf s.cfg f).length }
    events := s.events ++ deliverEvents s f.ch.toNat (handedOf s.cfg f)
    diags := s.diags ++ headerDiags s.cfg f.ch.toNat ++ dropDiags s f.ch.toNat (handedOf s.cfg f) }

section
variable {s : State} (hl : s.life = .alive) (hb : s.rxBusy = false) (hcb : s.callback = none)
  (hready : readyForFrame s.cur)
include hl hb hcb hready

theorem exec_rxChunk_header {a : Byte} (ha : a ≠ Config.marker) (c l : Byte) (bs : Bytes) :
    exec (.rxChunk (Config.marker :: a :: c :: l :: bs)) s = exec (.rxChunk bs) (s.headerTaken a c l) := by
  have hm := exec_rxChunk_marker hl hb hcb hready (a :: c :: l :: bs)
  have haddr := exec_rxChunk_address (s := s.setCur { s.cur with st := .header, cnt := 1 }) hl hb hcb rfl rfl ha
    (c :: l :: bs)
  have hctl := exec_rxChunk_control (s := s.setCur { s.cur with
    st := .header, cnt := 2, hdr := { s.cur.hdr with h1 := a } }) hl hb hcb rfl rfl c (l :: bs)
  have hlen := exec_rxChunk_length (s := s.setCur { s.cur with
    st := .header, cnt := 3, hdr := { s.cur.hdr with h1 := a, h2 := c } }) hl hb hcb rfl rfl l bs
  exact hm.trans (haddr.trans (hctl.trans hlen))

variable {f : Frame} (hok : f.ok = true)
include hok

/-- The header and the payload of a frame, taken. -/
theorem exec_rxChunk_body (c : Byte) (bs : Bytes) :
    exec (.rxChunk (Config.marker :: addrByte f :: c :: lenByte f :: (f.payload ++ bs))) s =
      exec (.rxChunk bs) ((s.headerTaken (addrByte f) c (lenByte f)).sliceTaken f.payload) := by
  obtain ⟨hlen, haddr⟩ := Frame.ok_iff.1 hok
  rw [exec_rxChunk_header hl hb hcb hready haddr]
  have hrem : (s.headerTaken (addrByte f) c (lenByte f)).cur.rem = f.payload.length := lenOf_lenByte f hlen
  by_cases hne : f.payload = []
  · rw [hne] at hrem ⊢
    rw [sliceTaken_nil (if_pos hrem) hrem]
    rfl
  · refine exec_rxChunk_slice (s := s.headerTaken (addrByte f) c (lenByte f)) hl hb hcb
      (if_neg (mt (lenOf_eq_zero_iff hok).1 hne)) rfl ?_ hne ?_
    · rw [gathered_headerTaken hok, gatheredOf]
      show 0 + _ ≤ 127
      split
      · omega
      · decide
    · rw [hrem, List.length_append]
      omega

theorem exec_rxChunk_beforeEnd (c : Byte) (bs : Bytes) :
    exec (.rxChunk (frameBytes c f ++ bs)) s = exec (.rxChunk (0xF9 :: bs)) (s.beforeEnd c f) := by
  have hbytes : frameBytes c f ++ bs =
      Config.marker :: addrByte f :: c :: lenByte f :: (f.payload ++ f.fcs :: 0xF9 :: bs) := by
    simp [frameBytes, Config.marker]
  have hrem : lenOf (lenByte f) - f.payload.length = 0 := by rw [lenOf_lenByte f (Frame.ok_iff.1 hok).1, Nat.sub_self]
  rw [hbytes, exec_rxChunk_body hl hb hcb hready hok,
    exec_rxChunk_fcs (s := (s.headerTaken (addrByte f) c (lenByte f)).sliceTaken f.payload) hl hb hcb (if_pos hrem) rfl]
  simp only [State.sliceTaken, gathered_headerTaken hok, handed_headerTaken hok, Cursor.afterSlice, State.handedOn]
  simp only [State.setCur, State.headerTaken, State.beforeEnd, hrem, chanOf_addrByte, Nat.zero_add, if_true]
  rfl

end

/-! ### Rejection (R158, R165) -/

/-- After the closing marker of a frame with a wrong FCS. -/
def State.rejected (s : State) (c : Byte) (f : Frame) : State :=
  { s.beforeEnd c f with
    cur := (s.beforeEnd c f).cur.ended 0xF9 .recover, diags := (s.beforeEnd c f).diags ++ [.fcsMismatch f.fcs] }

theorem untouched_rejected (s : State) (c : Byte) (f : Frame) : Untouched s (s.rejected c f) := by
  constructor <;> rfl

theorem exec_rxChunk_rejected {s : State} (hl : s.life = .alive) (hb : s.rxBusy = false) (hcb : s.callback = none)
    (hready : readyForFrame s.cur) {c : Byte} {f : Frame} (hok : f.ok = true) (hv : s.cfg.verifyFcs = true)
    (hf : f.fcs ≠ fcsOf (addrByte f) c (lenByte f)) (bs : Bytes) :
    exec (.rxChunk (frameBytes c f ++ bs)) s = exec (.rxChunk bs) (s.rejected c f) := by
  rw [exec_rxChunk_beforeEnd hl hb hcb hready hok]
  exact exec_rxChunk_mismatch (s := s.beforeEnd c f) hl hb hcb rfl rfl hv hf bs

/-! ### Acceptance (R159) -/

/-- What an accepted frame has done by its end. -/
def State.afterFrame (s : State) (c : Byte) (f : Frame) : State :=
  { s with
    cur := {
      st := .init, cnt := 0, hdr := ⟨s.cur.hdr.h0, addrByte f, c, lenByte f, f.fcs, 0xF9⟩
      ch := f.ch.toNat, kind := c, rem := 0, rbuf := s.cur.rbuf.writeBytes 0 (gatheredOf s.cfg f), rlen := 0 }
    ackReg :=
      match routeOf s.cfg (addrByte f) c (lenByte f) with
      | .ack => some f.ch.toNat
      | _ => s.ackReg
    events := s.events ++
      match routeOf s.cfg (addrByte f) c (lenByte f) with
      | .drop => []
      | .ack => [.ack f.ch.toNat]
      | .data => deliverEvents s f.ch.toNat f.payload
    diags := s.diags ++
      match routeOf s.cfg (addrByte f) c (lenByte f) with
      | .drop => [.unknownChannel f.ch.toNat]
      | .ack => []
      | .data => dropDiags s f.ch.toNat f.payload }

theorem untouched_afterFrame (s : State) (c : Byte) (f : Frame) : Untouched s (s.afterFrame c f) := by
  constructor <;> rfl

section
variable {s : State} {c : Byte} {f : Frame} (hok : f.ok = true)
include hok

theorem route_frame_ack_iff : routeOf s.cfg (addrByte f) c (lenByte f) = .ack ↔
    f.ch.toNat ≤ s.cfg.nData.val ∧ c = s.cfg.ackCtrl ∧ f.payload = [] := by
  rw [routeOf_eq_ack_iff, chanOf_addrByte, lenOf_eq_zero_iff hok]

theorem route_frame_data_iff : routeOf s.cfg (addrByte f) c (lenByte f) = .data ↔
    f.ch.toNat ≤ s.cfg.nData.val ∧ ¬ (c = s.cfg.ackCtrl ∧ f.payload = []) := by
  rw [routeOf_eq_data_iff, chanOf_addrByte, lenOf_eq_zero_iff hok]

end

theorem route_frame_drop_iff {cfg : Cfg} {c : Byte} {f : Frame} :
    routeOf cfg (addrByte f) c (lenByte f) = .drop ↔ cfg.nData.val < f.ch.toNat := by
  rw [routeOf_eq_drop_iff, chanOf_addrByte]

/-- A frame with a right FCS, or one that is not verified, is accepted. -/
theorem exec_rxChunk_frame {s : State} (hl : s.life = .alive) (hb : s.rxBusy = false) (hcb : s.callback = none)
    (hready : readyForFrame s.cur) {c : Byte} {f : Frame} (hok : f.ok = true) (hwf : s.cur.rbuf.wf = true)
    (hf : s.cfg.verifyFcs = false ∨ f.fcs = fcsOf (addrByte f) c (lenByte f)) (bs : Bytes) :
    exec (.rxChunk (frameBytes c f ++ bs)) s = exec (.rxChunk bs) (s.afterFrame c f) := by
  rw [exec_rxChunk_beforeEnd hl hb hcb hready hok]
  cases e : routeOf s.cfg (addrByte f) c (lenByte f) with
  | drop =>
    have hk := route_frame_drop_iff.1 e
    rw [exec_rxChunk_quiet (s := s.beforeEnd c f) hl hb hcb rfl rfl hf (.inl e)]
    simp [State.beforeEnd, State.afterFrame, Cursor.ended, e, handedOf_unknown hk, headerDiags_unknown hk]
  | ack =>
    obtain ⟨hk, -, hp⟩ := (route_frame_ack_iff hok).1 e
    rw [exec_rxChunk_ack (s := s.beforeEnd c f) hl hb hcb rfl rfl hf e]
    simp [State.beforeEnd, State.afterFrame, Cursor.ended, e, handedOf_empty hp, headerDiags_known hk]
  | data =>
    obtain ⟨hk, -⟩ := (route_frame_data_iff hok).1 e
    cases hd : s.cfg.defrag with
    | true =>
      have hg := gatheredOf_gathering hk hd
      have hread : memRead (s.beforeEnd c f).cur.rbuf (s.beforeEnd c f).cur.rlen = some f.payload := by
        simp only [State.beforeEnd, hg]
        exact (if_pos (Frame.ok_iff.1 hok).1).trans (congrArg some (Memory.readBytes_writeBytes _ hwf))
      rw [exec_rxChunk_delivers (s := s.beforeEnd c f) hl hb hcb rfl rfl hf e (chanOf_addrByte f).symm hd hread
        (congrArg List.length hg.symm)]
      simp [State.beforeEnd, State.afterFrame, Cursor.ended, e, handedOf_gathering hd, headerDiags_known hk,
        State.handedOn, State.setCur]
      rfl
    | false =>
      rw [exec_rxChunk_quiet (s := s.beforeEnd c f) hl hb hcb rfl rfl hf (.inr ⟨e, .inl hd⟩)]
      simp [State.beforeEnd, State.afterFrame, Cursor.ended, e, handedOf_slicing hk hd, headerDiags_known hk]

/-- The buffer after a frame on a known channel. -/
theorem read_writeBytes_gatheredOf {s : State} (hwf : s.cur.rbuf.wf = true) {f : Frame}
    (hk : f.ch.toNat ≤ s.cfg.nData.val) (a : Nat) :
    Memory.read (s.cur.rbuf.writeBytes 0 (gatheredOf s.cfg f)) a =
      if s.cfg.defrag = true ∧ a < f.payload.length then f.payload.getD a 0 else Memory.read s.cur.rbuf a := by
  rw [Memory.read_writeBytes 0 _ hwf]
  cases hd : s.cfg.defrag with
  | true => simp [gatheredOf_gathering hk hd]
  | false => simp [gatheredOf_slicing hd]

/-- Settles O27: the frame leaves the state after an accepted frame, and the empty rest of the chunk returns. -/
theorem frameIsAccepted : Obligations.FrameIsAccepted := by
  unfold Obligations.FrameIsAccepted
  intro i c f s hwf hparts hinv hl hb hready hf
  obtain ⟨hok, -⟩ := instrOf_frameParts hwf hparts
  obtain ⟨hcur, hcalls, -, -⟩ := hinv
  obtain ⟨-, -, -, hbuf, -⟩ := hcur.ranges
  have hcb := callback_eq_none hcalls hb
  have hframe := exec_rxChunk_frame hl hb hcb hready hok hbuf hf []
  rw [List.append_nil, exec_rxChunk_nil (s := s.afterFrame c f) hl hb hcb, ← exec_of_frameParts hparts] at hframe
  refine ⟨_, hframe, decoderFrame_ret (untouched_afterFrame s c f) rfl _, rfl, rfl, rfl, rfl, rfl, rfl, rfl, rfl,
    fun hk => ?_, fun hk hc hp => ?_, fun hk hack => ?_⟩
  · have e : routeOf s.cfg (addrByte f) c (lenByte f) = .drop := route_frame_drop_iff.2 hk
    simp [State.afterFrame, e, gatheredOf_unknown hk, Memory.writeBytes]
  · have e : routeOf s.cfg (addrByte f) c (lenByte f) = .ack := (route_frame_ack_iff hok).2 ⟨hk, hc, hp⟩
    simp [State.afterFrame, e, gatheredOf_empty hp, Memory.writeBytes]
  · have e : routeOf s.cfg (addrByte f) c (lenByte f) = .data := (route_frame_data_iff hok).2 ⟨hk, hack⟩
    simp only [State.afterFrame, State.ret_ackReg, State.ret_events, State.ret_diags, e, true_and]
    exact read_writeBytes_gatheredOf hbuf hk

/-- Settles O28: the frame is rejected at its closing marker; its payload has gone where it goes before that. -/
theorem fcsMismatchRejects : Obligations.FcsMismatchRejects := by
  unfold Obligations.FcsMismatchRejects
  intro i c f s hwf hparts hinv hl hb hready hv hf
  obtain ⟨hok, -⟩ := instrOf_frameParts hwf hparts
  obtain ⟨-, hcalls, -, -⟩ := hinv
  have hcb := callback_eq_none hcalls hb
  have hframe := exec_rxChunk_rejected hl hb hcb hready hok hv hf []
  rw [List.append_nil, exec_rxChunk_nil (s := s.rejected c f) hl hb hcb, ← exec_of_frameParts hparts] at hframe
  refine ⟨_, hframe, decoderFrame_ret (untouched_rejected s c f) rfl _, rfl, rfl, rfl, rfl, rfl,
    fun hk => ?_, fun hk hd => ?_, fun hk hd => ?_⟩
  · simp [State.rejected, State.beforeEnd, handedOf_unknown hk, headerDiags_unknown hk]
  · simp [State.rejected, State.beforeEnd, handedOf_gathering hd, headerDiags_known hk]
  · simp [State.rejected, State.beforeEnd, handedOf_slicing hk hd, headerDiags_known hk]

end Sys2Proof.Machine
end

section
/-! PROOFS. How a stream is cut into chunks (42_decoder.md R150, R161 to R163): an RX_CHUNK call completes and is alike
to its octets fed to the decoder one by one, whatever slices it takes. -/

namespace Sys2Proof.Machine

/-! ### States that differ in how the delivered octets are cut -/

theorem octetTrace_append (es es' : List Event) : octetTrace (es ++ es') = octetTrace es ++ octetTrace es' :=
  List.flatMap_append

theorem quietDiags_append (ds ds' : List Diag) : quietDiags (ds ++ ds') = quietDiags ds ++ quietDiags ds' :=
  List.filter_append ..

/-- The same to the decoder, and the same outputs up to the cuts between delivered octets and the NoCallback entries;
with DEFRAG the same outputs. -/
structure Alike (s t : State) : Prop where
  cfg    : t.cfg = s.cfg
  cb     : t.cb = s.cb
  cur    : t.cur = s.cur
  ackReg : t.ackReg = s.ackReg
  octets : octetTrace t.events = octetTrace s.events
  quiet  : quietDiags t.diags = quietDiags s.diags
  whole  : s.cfg.defrag = true → t.events = s.events ∧ t.diags = s.diags

theorem Alike.refl (s : State) : Alike s s := ⟨rfl, rfl, rfl, rfl, rfl, rfl, fun _ => ⟨rfl, rfl⟩⟩

theorem Alike.symm {s t : State} (h : Alike s t) : Alike t s :=
  ⟨h.cfg.symm, h.cb.symm, h.cur.symm, h.ackReg.symm, h.octets.symm, h.quiet.symm, fun hd =>
    have hw := h.whole (h.cfg ▸ hd)
    ⟨hw.1.symm, hw.2.symm⟩⟩

theorem Alike.trans {s t u : State} (h : Alike s t) (k : Alike t u) : Alike s u :=
  ⟨k.cfg.trans h.cfg, k.cb.trans h.cb, k.cur.trans h.cur, k.ackReg.trans h.ackReg, k.octets.trans h.octets,
    k.quiet.trans h.quiet, fun hd =>
    have hw := h.whole hd
    have kw := k.whole (h.cfg ▸ hd)
    ⟨kw.1.trans hw.1, kw.2.trans hw.2⟩⟩

/-- Whether a callback is running makes no difference. -/
theorem alike_setCallback (s : State) (v : Option Nat) : Alike s (s.setCallback v) :=
  ⟨rfl, rfl, rfl, rfl, rfl, rfl, fun _ => ⟨rfl, rfl⟩⟩

section
variable {s t : State} (h : Alike s t)
include h

theorem Alike.setCur (c : Cursor) : Alike (s.setCur c) (t.setCur c) :=
  ⟨h.cfg, h.cb, rfl, h.ackReg, h.octets, h.quiet, h.whole⟩

theorem Alike.setAck (a : Option Nat) : Alike (s.setAck a) (t.setAck a) :=
  ⟨h.cfg, h.cb, h.cur, rfl, h.octets, h.quiet, h.whole⟩

theorem Alike.setCallback (v : Option Nat) : Alike (s.setCallback v) (t.setCallback v) :=
  ⟨h.cfg, h.cb, h.cur, h.ackReg, h.octets, h.quiet, h.whole⟩

theorem Alike.emit (e : Event) : Alike (s.emit e) (t.emit e) :=
  ⟨h.cfg, h.cb, h.cur, h.ackReg, by simp [octetTrace_append, h.octets], h.quiet, fun hd => by simp [h.whole hd]⟩

theorem Alike.note (d : Diag) : Alike (s.note d) (t.note d) :=
  ⟨h.cfg, h.cb, h.cur, h.ackReg, h.octets, by simp [quietDiags_append, h.quiet], fun hd => by simp [h.whole hd]⟩

theorem Alike.route : route t = route s := by rw [Machine.route, Machine.route, h.cfg, h.cur]

theorem Alike.cbAt (ch : Nat) : t.cbAt ch = s.cbAt ch := by rw [State.cbAt, State.cbAt, h.cb]

theorem Alike.dispatch (ch : Nat) (bs : Bytes) : Alike (dispatch ch bs s) (dispatch ch bs t) := by
  unfold Machine.dispatch
  rw [h.cfg, h.cbAt]
  split
  · split
    · exact h.note _
    · exact (h.emit _).setCallback _
  · exact h.note _

theorem Alike.resync (d : Diag) : Alike (resync d s) (resync d t) := by
  rw [Machine.resync, Machine.resync, h.cur]
  exact (h.setCur _).note d

theorem Alike.openFrame : Alike (openFrame s) (openFrame t) := by
  rw [Machine.openFrame, Machine.openFrame, h.cur]
  exact h.setCur _

theorem Alike.closeFrame : Alike (closeFrame s) (closeFrame t) := by
  rw [Machine.closeFrame, Machine.closeFrame, h.cur]
  exact h.setCur _

theorem Alike.countPayload (k : Nat) : Alike (countPayload k s) (countPayload k t) := by
  rw [Machine.countPayload, Machine.countPayload, h.cur]
  exact h.setCur _

theorem Alike.headerDone : Alike (headerDone s) (headerDone t) := by
  unfold Machine.headerDone
  rw [h.cur, h.route]
  dsimp only
  split
  · exact (h.setCur _).note _
  · exact h.setCur _

end

/-! ### Decoder steps from states alike -/

/-- Where the step answers a state, the other answers one alike. -/
def Follows (r r' : Except Fault State) : Prop := ∀ u, r = .ok u → ∃ u', r' = .ok u' ∧ Alike u u'

theorem Follows.ok {u u' : State} (h : Alike u u') : Follows (.ok u) (.ok u') := by
  rintro _ ⟨⟩
  exact ⟨u', rfl, h⟩

theorem Follows.error (f : Fault) (r : Except Fault State) : Follows (.error f) r := by
  intro u h
  cases h

section
variable {s t : State} (h : Alike s t)
include h

theorem Alike.acceptFrame : Follows (acceptFrame s) (acceptFrame t) := by
  unfold Machine.acceptFrame
  rw [h.cur, h.cfg, h.route]
  split
  · exact .ok ((h.setAck _).emit _).closeFrame
  · exact .ok h.closeFrame
  · split
    · split
      · exact .ok (h.dispatch _ _).closeFrame
      · exact .error _ _
    · exact .ok h.closeFrame

theorem Alike.frameEnd : Follows (frameEnd s) (frameEnd t) := by
  unfold Machine.frameEnd
  rw [h.cur, h.cfg]
  split
  · split
    · exact .ok (h.resync _)
    · exact h.acceptFrame
  · exact .ok (h.resync _)

theorem Alike.storeHdr (b : Byte) {k : State → Except Fault State} (hk : ∀ u u', Alike u u' → Follows (k u) (k u')) :
    Follows (storeHdr b s k) (storeHdr b t k) := by
  unfold Machine.storeHdr
  rw [h.cur]
  split
  · exact hk _ _ (h.setCur _)
  · exact .error _ _

theorem Alike.takePayload (bs : Bytes) : Follows (takePayload bs s) (takePayload bs t) := by
  unfold Machine.takePayload
  rw [h.cur, h.cfg, h.route]
  split
  · split
    · split
      · exact .ok (h.setCur _)
      · exact .error _ _
    · exact .ok (h.dispatch _ _)
  · exact .ok h

theorem Alike.payloadStep (bs : Bytes) : Follows (payloadStep bs s) (payloadStep bs t) := by
  have htake := h.takePayload bs
  unfold Machine.payloadStep
  split
  · next u hu =>
    obtain ⟨u', hu', ha⟩ := htake u hu
    rw [hu']
    exact .ok (ha.countPayload _)
  · exact .error _ _

theorem Alike.byteStep (b : Byte) : Follows (byteStep b s) (byteStep b t) := by
  unfold Machine.byteStep
  rw [h.cur]
  split
  · split
    · exact .ok h.openFrame
    · exact .ok (h.resync _)
  · split
    · exact .ok h
    · refine h.storeHdr b fun u u' ha => .ok ?_
      rw [ha.cur]
      split
      · exact ha.headerDone
      · exact ha
  · exact h.payloadStep [b]
  · refine h.storeHdr b fun u u' ha => ?_
    rw [ha.cur]
    split
    · exact ha.frameEnd
    · exact .ok ha
  · split
    · exact .ok h.openFrame
    · exact .ok h

end

/-! ### Octets fed one by one -/

/-- The decoder, fed octet by octet: R163's measure of every cutting. -/
def feed (bs : Bytes) (s : State) : Except Fault State := bs.foldlM (fun s b => byteStep b s) s

theorem feed_cons {b : Byte} {s t : State} (h : byteStep b s = .ok t) (bs : Bytes) : feed (b :: bs) s = feed bs t := by
  rw [feed, List.foldlM_cons, h]
  rfl

theorem feed_append {x : Bytes} {s t : State} (h : feed x s = .ok t) (y : Bytes) : feed (x ++ y) s = feed y t := by
  rw [feed, List.foldlM_append, ← feed, h]
  rfl

theorem Alike.feed {s t : State} (h : Alike s t) (bs : Bytes) : Follows (feed bs s) (feed bs t) := by
  induction bs generalizing s t with
  | nil => exact .ok h
  | cons b bs ih =>
    have hstep := h.byteStep b
    cases e : Machine.byteStep b s with
    | error f =>
      have herr : Machine.feed (b :: bs) s = .error f := by
        rw [Machine.feed, List.foldlM_cons, e]
        rfl
      exact herr ▸ .error f _
    | ok u =>
      obtain ⟨u', e', ha⟩ := hstep u e
      rw [feed_cons e, feed_cons e']
      exact ih ha

/-- Fed the octets `bs`, the decoder gets from `s` to a state alike to `t`. -/
def FeedsTo (bs : Bytes) (s t : State) : Prop := ∃ u, feed bs s = .ok u ∧ Alike u t

theorem FeedsTo.nil {s t : State} (h : Alike s t) : FeedsTo [] s t := ⟨s, rfl, h⟩

theorem FeedsTo.trans {x y : Bytes} {s t u : State} (h : FeedsTo x s t) (k : FeedsTo y t u) : FeedsTo (x ++ y) s u := by
  obtain ⟨t', hx, ht⟩ := h
  obtain ⟨u', hy, hu⟩ := k
  obtain ⟨u'', hy', ha⟩ := ht.symm.feed y u' hy
  exact ⟨u'', (feed_append hx y).trans hy', ha.symm.trans hu⟩

theorem FeedsTo.unique {x : Bytes} {s t u : State} (h : FeedsTo x s t) (k : FeedsTo x s u) : Alike t u := by
  obtain ⟨v, hv, ht⟩ := h
  obtain ⟨w, hw, hu⟩ := k
  cases hv.symm.trans hw
  exact ht.symm.trans hu

/-! ### A slice is its octets (R155) -/

theorem octetTrace_deliverEvents (s : State) (ch : Nat) (x y : Bytes) :
    octetTrace (deliverEvents s ch (x ++ y)) =
      octetTrace (deliverEvents s ch x) ++ octetTrace (deliverEvents s ch y) := by
  have hone : ∀ bs, octetTrace (deliverEvents s ch bs) =
      if (s.cbAt ch).isSome then bs.map fun b => (ch, some b) else [] := by
    intro bs
    unfold deliverEvents
    by_cases hbs : bs = []
    · simp [hbs, octetTrace]
    · cases s.cbAt ch <;> simp [hbs, octetTrace]
  rw [hone, hone, hone]
  split <;> simp

theorem quietDiags_dropDiags (s : State) (ch : Nat) (bs : Bytes) : quietDiags (dropDiags s ch bs) = [] := by
  unfold dropDiags
  split
  · rfl
  · split <;> rfl

theorem gathered_append (s : State) (x y : Bytes) : s.gathered (x ++ y) = s.gathered x ++ s.gathered y := by
  unfold State.gathered
  split <;> rfl

theorem handed_append (s : State) (x y : Bytes) : s.handed (x ++ y) = s.handed x ++ s.handed y := by
  unfold State.handed
  split <;> rfl

theorem afterSlice_append (cur : Cursor) {j k : Nat} (hj : j < cur.rem) (x y : Bytes) :
    (cur.afterSlice j x).afterSlice k y = cur.afterSlice (j + k) (x ++ y) := by
  have hne : ¬ cur.rem - j = 0 := by omega
  simp only [Cursor.afterSlice, if_neg hne, Memory.writeBytes_append, List.length_append, Nat.add_assoc, Nat.sub_sub]

/-- Two slices, one after the other, are alike to one. -/
theorem sliceTaken_append (s : State) {x : Bytes} (y : Bytes) (hx : x.length < s.cur.rem) :
    Alike ((s.sliceTaken x).sliceTaken y) (s.sliceTaken (x ++ y)) := by
  refine ⟨rfl, rfl, ?_, rfl, ?_, ?_, fun hd => ?_⟩
  · show s.cur.afterSlice (x ++ y).length (s.gathered (x ++ y)) =
      (s.cur.afterSlice x.length (s.gathered x)).afterSlice y.length (s.gathered y)
    rw [afterSlice_append _ hx, gathered_append, List.length_append]
  · show octetTrace (s.events ++ deliverEvents s s.cur.ch (s.handed (x ++ y))) =
      octetTrace (s.events ++ deliverEvents s s.cur.ch (s.handed x) ++ deliverEvents s s.cur.ch (s.handed y))
    simp only [handed_append, octetTrace_append, octetTrace_deliverEvents, List.append_assoc]
  · show quietDiags (s.diags ++ dropDiags s s.cur.ch (s.handed (x ++ y))) =
      quietDiags (s.diags ++ dropDiags s s.cur.ch (s.handed x) ++ dropDiags s s.cur.ch (s.handed y))
    simp only [quietDiags_append, quietDiags_dropDiags, List.append_nil]
  · show s.events ++ deliverEvents s s.cur.ch (s.handed (x ++ y)) =
        s.events ++ deliverEvents s s.cur.ch (s.handed x) ++ deliverEvents s s.cur.ch (s.handed y) ∧
      s.diags ++ dropDiags s s.cur.ch (s.handed (x ++ y)) =
        s.diags ++ dropDiags s s.cur.ch (s.handed x) ++ dropDiags s s.cur.ch (s.handed y)
    simp [handed_gathering (s := s) _ hd]

theorem payloadStep_alike {s : State} (h : CursorInv s.cfg s.cur) (hst : s.cur.st = .payload) {bs : Bytes}
    (hne : bs ≠ []) (hlen : bs.length ≤ s.cur.rem) : ∃ t, payloadStep bs s = .ok t ∧ Alike t (s.sliceTaken bs) := by
  have hpay := h.payloadInv hst
  obtain ⟨-, -, hch, -, -⟩ := id hpay
  obtain ⟨u, hu, hret⟩ := payloadStep_returned (s := s.setCallback none) rfl hch (gathered_fits hpay hlen) hne
  obtain ⟨t, ht, ha⟩ := (alike_setCallback s none).symm.payloadStep bs u hu
  refine ⟨t, ht, ha.symm.trans ((alike_setCallback u none).trans ?_)⟩
  rw [hret]
  exact (alike_setCallback (s.sliceTaken bs) none).symm

/-- A slice of a payload is alike to its octets. -/
theorem feedsTo_sliceTaken {bs : Bytes} (hne : bs ≠ []) {s : State} (h : CursorInv s.cfg s.cur)
    (hst : s.cur.st = .payload) (hlen : bs.length ≤ s.cur.rem) : FeedsTo bs s (s.sliceTaken bs) := by
  induction bs generalizing s with
  | nil => exact absurd rfl hne
  | cons b bs ih =>
    have hbyte : byteStep b s = payloadStep [b] s := by simp [byteStep, hst]
    have hone : [b].length ≤ s.cur.rem := le_trans (by simp) hlen
    obtain ⟨t, ht, ha⟩ := payloadStep_alike h hst (List.cons_ne_nil b []) hone
    have hfirst : FeedsTo [b] s (s.sliceTaken [b]) := ⟨t, feed_cons (hbyte.trans ht) [], ha⟩
    by_cases hbs : bs = []
    · rw [hbs]
      exact hfirst
    · have hlt : [b].length < s.cur.rem := by
        have := List.length_pos_iff.2 hbs
        simp only [List.length_cons, List.length_nil] at hlen ⊢
        omega
      have hinv : CursorInv (s.sliceTaken [b]).cfg (s.sliceTaken [b]).cur := by
        obtain ⟨t', ht', -, hinv, -⟩ := payloadStep_keeps h hst [b] hone
        cases ht.symm.trans ht'
        rw [ha.cfg, ha.cur]
        exact hinv
      have hphase : (s.sliceTaken [b]).cur.st = .payload := (if_neg (Nat.sub_ne_zero_of_lt hlt)).trans hst
      have hrest := ih hbs hinv hphase (by
        show bs.length ≤ s.cur.rem - 1
        simp only [List.length_cons] at hlen
        omega)
      obtain ⟨u, hu, hau⟩ := hfirst.trans hrest
      exact ⟨u, hu, hau.trans (sliceTaken_append s bs hlt)⟩

/-! ### The run of a call (R150, R161) -/

/-- What an RX_CHUNK call that has taken the octets `x` has made of the state. -/
structure Fed (x : Bytes) (s t : State) : Prop where
  untouched : Untouched s t
  inv       : CursorInv t.cfg t.cur
  buffer    : s.cfg.defrag = false → t.cur.rbuf = s.cur.rbuf
  octets    : FeedsTo x s t

theorem Fed.trans {x y : Bytes} {s t u : State} (h : Fed x s t) (k : Fed y t u) : Fed (x ++ y) s u :=
  ⟨h.untouched.trans k.untouched, k.inv,
    fun hd => (k.buffer (h.untouched.cfg ▸ hd)).trans (h.buffer hd), h.octets.trans k.octets⟩

/-- A decoder step of a call that takes the octets `x`. -/
theorem fed_of_step {x : Bytes} {s : State} {r : Except Fault State} (hk : StepKeeps s r) (hp : Yields (Proceeds s) r)
    (hx : ∀ t, r = .ok t → FeedsTo x s t) : ∃ t, r = .ok t ∧ Fed x s t := by
  obtain ⟨t, rfl, hu, hinv, -⟩ := hk
  exact ⟨t, rfl, hu, hinv, (hp t rfl).buffer, hx t rfl⟩

/-- A move of an RX_CHUNK call from a cursor that meets its invariants: the call returns, the chunk consumed, or it has
taken the first octets of the rest. -/
theorem rxMove_fed {s : State} (h : CursorInv s.cfg s.cur) (c : Caller) (rest : Bytes) :
    (s.callback = none ∧ rest = [] ∧
      rxMove c rest s = .returned ((s.setBusy false).retTo c (.bool (atBoundary s.cur.st)))) ∨
    ∃ x rest' t, rest = x ++ rest' ∧ rxMove c rest s = .goesOn (.rx c rest') t ∧ Fed x s t := by
  rcases rxMove_cases c rest s with ⟨_, e⟩ | hret | ⟨_, hne, hst, e⟩ | ⟨_, hst, b, bs, rfl, e⟩
  · exact .inr ⟨[], rest, _, rfl, e, untouched_setCallback s none, h, fun _ => rfl, .nil (alike_setCallback s none)⟩
  · exact .inl hret
  · obtain ⟨-, hrem, -⟩ := h.payloadInv hst
    have hpos := List.length_pos_iff.2 hne
    have hlen : (rest.take (min s.cur.rem rest.length)).length ≤ s.cur.rem := by simp
    have htake : rest.take (min s.cur.rem rest.length) ≠ [] := by
      rw [← List.length_pos_iff, List.length_take]
      omega
    obtain ⟨t, ht, hfed⟩ := fed_of_step (payloadStep_keeps h hst _ hlen) (payloadStep_proceeds _ s) fun t ht => by
      obtain ⟨u, hu, hau⟩ := feedsTo_sliceTaken htake h hst hlen
      obtain ⟨t', ht', hat⟩ := payloadStep_alike h hst htake hlen
      cases ht.symm.trans ht'
      exact ⟨u, hu, hau.trans hat.symm⟩
    rw [ht] at e
    exact .inr ⟨_, _, t, (List.take_append_drop _ rest).symm, e, hfed⟩
  · obtain ⟨t, ht, hfed⟩ := fed_of_step (byteStep_keeps h b hst) (byteStep_proceeds b s) fun t ht =>
      (⟨t, feed_cons ht [], Alike.refl t⟩ : FeedsTo [b] s t)
    rw [ht] at e
    exact .inr ⟨[b], bs, t, rfl, e, hfed⟩

theorem runTask_fed {n : Nat} {rest : Bytes} {s : State} (h : CursorInv s.cfg s.cur) (c : Caller)
    (hn : rxCost rest s ≤ n) :
    ∃ w, runTask n (.rx c rest) s = .next ((w.setBusy false).retTo c (.bool (atBoundary w.cur.st))) ∧
      Fed rest s w ∧ w.callback = none := by
  induction n generalizing rest s with
  | zero =>
    unfold rxCost at hn
    omega
  | succ n ih =>
    rcases rxMove_fed h c rest with ⟨hcb, rfl, e⟩ | ⟨x, rest', t, rfl, e, hfed⟩
    · exact ⟨s, runTask_returned (t := .rx c []) e n, ⟨Untouched.refl s, h, fun _ => rfl, .nil (Alike.refl s)⟩, hcb⟩
    · obtain ⟨r, hr, hlt⟩ := rxCost_move (c := c) e
      cases hr
      obtain ⟨w, hrun, hw, hcb⟩ := ih (rest := rest') hfed.inv (by omega)
      exact ⟨w, (runTask_goesOn (t := .rx c (x ++ rest')) e n).trans hrun, hfed.trans hw, hcb⟩

theorem exec_rxChunk_fed {s : State} (h : CursorInv s.cfg s.cur) (hl : s.life = .alive) (hb : s.rxBusy = false)
    (bs : Bytes) :
    ∃ w, exec (.rxChunk bs) s = .next ((w.setBusy false).retTo s.caller (.bool (atBoundary w.cur.st))) ∧
      Fed bs (s.setBusy true) w ∧ w.callback = none := by
  rw [exec_rxChunk hl hb]
  exact runTask_fed (s := s.setBusy true) h s.caller (rxCost_le bs _)

/-- Settles O36: the call has moves enough to return, and no move of it faults. -/
theorem rxChunkCompletes : Obligations.RxChunkCompletes := by
  unfold Obligations.RxChunkCompletes
  intro c s hinv hl hb
  obtain ⟨hcur, hcalls, -, -⟩ := hinv
  obtain ⟨w, hrun, hfed, hcb⟩ := exec_rxChunk_fed hcur hl hb c
  obtain ⟨hcfg, hreg, hopen, hlock, hlife, -, hin, hport, hwire, hres, hcaller, hreply, hag, hhs, hor, hdr⟩ :=
    hfed.untouched
  refine ⟨_, hrun, ?_, ?_, hfed.buffer⟩
  · exact ⟨hcfg, hreg, hopen, hlock, hlife, hb.symm, hcb.trans (callback_eq_none hcalls hb).symm, hin, hport, hwire,
      hcaller, hreply, hag, hhs, hor, hdr⟩
  · exact congrArg (· ++ [_]) hres

theorem idle_of_exec_rxChunk {s t : State} {bs : Bytes} (h : exec (.rxChunk bs) s = .next t) :
    s.life = .alive ∧ s.rxBusy = false := by
  replace h : runBegun (beginRx bs s) = .next t := h
  cases e : beginRx bs s with
  | refused q => rw [e] at h; cases h
  | begun task s' =>
    obtain ⟨hl, hb, -, -⟩ := beginRx_begun e
    exact ⟨hl, hb⟩

/-- Settles O38: the whole chunk and its two pieces are fed the same octets. -/
theorem chunkingInvariance : Obligations.ChunkingInvariance := by
  unfold Obligations.ChunkingInvariance
  intro a b s t u v hinv ht hu hv
  obtain ⟨hcur, -, -, -⟩ := hinv
  obtain ⟨hl, hb⟩ := idle_of_exec_rxChunk ht
  obtain ⟨hlu, hbu⟩ := idle_of_exec_rxChunk hv
  obtain ⟨wt, hrt, hwhole, -⟩ := exec_rxChunk_fed hcur hl hb (a ++ b)
  obtain ⟨wu, hru, hfirst, -⟩ := exec_rxChunk_fed hcur hl hb a
  cases ht.symm.trans hrt
  cases hu.symm.trans hru
  obtain ⟨wv, hrv, hsecond, -⟩ := exec_rxChunk_fed (by exact hfirst.inv) hlu hbu b
  cases hv.symm.trans hrv
  have hbetween : Alike wu (((wu.setBusy false).retTo s.caller (.bool (atBoundary wu.cur.st))).setBusy true) :=
    ⟨rfl, rfl, rfl, rfl, rfl, rfl, fun _ => ⟨rfl, rfl⟩⟩
  have hpieces : FeedsTo (a ++ b) (s.setBusy true) wv :=
    hfirst.octets.trans ((FeedsTo.nil hbetween).trans hsecond.octets)
  obtain ⟨-, -, hcur', hack, hoctets, hquiet, hdefrag⟩ := hwhole.octets.unique hpieces
  have hcfg : wt.cfg = s.cfg := hwhole.untouched.cfg
  exact ⟨hcur', hack, hoctets, hquiet, fun hd => hdefrag (hcfg ▸ hd)⟩

end Sys2Proof.Machine
end

section
/-! PROOFS. The registry and the engine's lifecycle (43_registry.md R200 to R208): what REGISTER_CALLBACK and SET_OPEN
leave of the other channels, where a DISPATCH goes, when the engine is busy, and what a torn-down engine refuses. -/

namespace Sys2Proof.Machine

/-! ### The callbacks and the open flags (R200, R202, R203) -/

/-- SET_OPEN leaves every other channel's flag. -/
theorem State.openAt_setOpened_other (s : State) {ch c : Nat} (hch : ch ≤ 63) (hc : c ≤ 63) (hne : c ≠ ch) :
    (s.setOpened ch).openAt c = s.openAt c :=
  Vector.getElem_set_ne (slot ch).isLt (slot c).isLt fun e => hne (slot_inj hc hch (Fin.ext e.symm))

theorem le_63_of_le_nData {cfg : Cfg} {ch : Nat} (h : ch ≤ cfg.nData.val) : ch ≤ 63 :=
  known_le (cfg := cfg) (decide_eq_true h)

/-- Settles O41: a known channel passes the checks, and the registration writes its slot alone. -/
theorem registerCallbackBinds : Obligations.RegisterCallbackBinds := by
  unfold Obligations.RegisterCallbackBinds
  intro ch h s hl hk
  exact ⟨s.setCb ch h, onChannel_of_known hl hk _, rfl, s.cbAt_setCb_same ch h,
    fun c hc hne => s.cbAt_setCb_other h (le_63_of_le_nData hk) hc hne⟩

/-- Settles O43: a known channel passes the checks, and its flag's slot alone is written. -/
theorem setOpenOpensTheChannel : Obligations.SetOpenOpensTheChannel := by
  unfold Obligations.SetOpenOpensTheChannel
  intro ch s hl hk
  exact ⟨s.setOpened ch, onChannel_of_known hl hk _, rfl, s.openAt_setOpened_same ch,
    fun c hc hne => s.openAt_setOpened_other (le_63_of_le_nData hk) hc hne⟩

/-- Settles O44: a known channel passes the checks, and the call's work is the return of the flag. -/
theorem getOpenReadsTheFlag : Obligations.GetOpenReadsTheFlag := by
  unfold Obligations.GetOpenReadsTheFlag
  exact fun ch s hl hk => onChannel_of_known hl hk _

/-! ### DISPATCH (R201) -/

section
variable {s : State} {ch : Nat}

theorem dispatch_unknown (h : s.cfg.nData.val < ch) (bs : Bytes) :
    dispatch ch bs s = s.note (.unknownChannel ch) := by
  simp [dispatch, known, h]

theorem dispatch_unbound (hk : known s.cfg ch = true) (hcb : s.cbAt ch = none) (bs : Bytes) :
    dispatch ch bs s = s.note (.noCallback ch) := by
  simp [dispatch, hk, hcb]

theorem exec_dispatch_of_alive (hl : s.life = .alive) (bs : Bytes) :
    exec (.dispatch ch bs) s = .next ((dispatch ch bs s).setCallback s.callback) :=
  whenAlive_of_alive hl _
end

/-- Settles O42: each clause is one branch of `dispatch`; the call puts back which callback is running. -/
theorem dispatchDeliversOrDrops : Obligations.DispatchDeliversOrDrops := by
  unfold Obligations.DispatchDeliversOrDrops
  intro ch bs s hl
  rw [exec_dispatch_of_alive hl]
  refine ⟨fun hch => ?_, fun hk hcb => ?_, fun h hk hcb => ?_⟩
  · rw [dispatch_unknown hch]
    rfl
  · rw [dispatch_unbound (decide_eq_true hk) hcb]
    rfl
  · rw [dispatch_bound (decide_eq_true hk) hcb]
    rfl

/-! ### The acknowledgement register (R204, R205) -/

theorem ackValue_of_alive {s : State} (hl : s.life = .alive) : ackValue s = .ack s.ackReg := by
  simp [ackValue, hl]

theorem ackValue_of_tornDown {s : State} (hl : s.life = .tornDown) : ackValue s = .stopped := by
  simp [ackValue, hl]

theorem exec_ackRead (s : State) : exec .ackRead s = .next (s.ret (ackValue s)) := rfl

/-- Settles O45: ACK_READ has no check before its work, and life chooses the value alone. -/
theorem ackReadReadsTheRegister : Obligations.AckReadReadsTheRegister := by
  unfold Obligations.AckReadReadsTheRegister
  intro s
  rw [exec_ackRead]
  constructor
  · intro hl
    rw [ackValue_of_alive hl]
    rfl
  · intro hl
    rw [ackValue_of_tornDown hl]
    rfl

/-! ### Refusals of a torn-down engine (R208, R225, R227) -/

theorem beginRx_of_tornDown {s : State} (hl : s.life = .tornDown) (bs : Bytes) :
    beginRx bs s = .refused .afterTeardown := by
  simp [beginRx, hl]

theorem beginTx_of_tornDown {s : State} (hl : s.life = .tornDown) (ch : Nat) (ws : List Bytes) (n : Nat) :
    beginTx ch ws n s = .refused .afterTeardown := by
  simp [beginTx, hl]

/-- A torn-down engine begins no call. -/
theorem begunOf_of_tornDown {i : Instr} {s : State} {b : Begun} (hl : s.life = .tornDown) (h : begunOf i s = some b) :
    b = .refused .afterTeardown := by
  obtain ⟨-, c, rfl⟩ | ⟨-, ch, ws, n, rfl⟩ := begunOf_cases h
  · exact beginRx_of_tornDown hl c
  · exact beginTx_of_tornDown hl ch ws n

/-- Settles O49: a call that can be in flight is refused at its beginning, and every other one by its first check. -/
theorem afterTeardownRefused : Obligations.AfterTeardownRefused := by
  unfold Obligations.AfterTeardownRefused
  intro i s hl hack hreset
  cases hb : begunOf i s with
  | some b =>
    rw [exec_of_begunOf hb, begunOf_of_tornDown hl hb]
    rfl
  | none =>
    cases i with
    | ackRead => exact absurd rfl hack
    | reset r => exact absurd rfl (hreset r)
    | crc8 _ | fcs _ _ _ | encodeHeader _ _ _ _ | encodeTrailer _ | decodeHeader _ | fcsCheck _ _ _ _
    | registerCallback _ _ | dispatch _ _ | setOpen _ | getOpen _ | ackClear | start | stop | teardown =>
      exact whenAlive_of_tornDown hl _
    | _ => cases hb

/-- Settles O46: alive, the work is one write of the register; torn down, it is among the refused. -/
theorem ackClearClearsTheRegister : Obligations.AckClearClearsTheRegister := by
  unfold Obligations.AckClearClearsTheRegister
  exact fun s => ⟨fun hl => whenAlive_of_alive hl _, fun hl => afterTeardownRefused _ s hl nofun nofun⟩

/-- Settles O47: alive, the work is the transport's call; torn down, both are among the refused. -/
theorem startStopPassThrough : Obligations.StartStopPassThrough := by
  unfold Obligations.StartStopPassThrough
  intro s
  constructor
  · exact fun hl => ⟨whenAlive_of_alive hl _, whenAlive_of_alive hl _⟩
  · exact fun hl => ⟨afterTeardownRefused _ s hl nofun nofun, afterTeardownRefused _ s hl nofun nofun⟩

/-! ### TEARDOWN (R208, R268) -/

theorem busy_eq_true_iff (s : State) :
    busy s = true ↔ s.rxBusy = true ∨ s.txlock ≠ .free ∨ s.inflight.any Task.isTx = true := by
  rw [busy, Bool.or_eq_true, Bool.or_eq_true, bne_iff_ne, or_assoc]

theorem busy_eq_false_iff (s : State) :
    busy s = false ↔ s.rxBusy = false ∧ s.txlock = .free ∧ s.inflight.any Task.isTx = false := by
  rw [busy, Bool.or_eq_false_iff, Bool.or_eq_false_iff, bne_eq_false_iff_eq, and_assoc]

theorem exec_teardown_of_alive {s : State} (hl : s.life = .alive) :
    exec .teardown s = if busy s then .refused .teardownBusy else .next { s with life := .tornDown } :=
  whenAlive_of_alive hl _

/-- Settles O48: the two clauses are the engine idle and the engine busy. -/
theorem teardownEndsTheEngine : Obligations.TeardownEndsTheEngine := by
  unfold Obligations.TeardownEndsTheEngine
  intro s hl
  rw [exec_teardown_of_alive hl]
  constructor
  · intro hrx hlock htx
    have hidle : busy s = false := (busy_eq_false_iff s).2 ⟨hrx, hlock, htx⟩
    simp [hidle]
  · intro h
    exact if_pos ((busy_eq_true_iff s).2 h)

end Sys2Proof.Machine
end

section
/-! PROOFS. The moves of a step, the refusal of a channel above `N_DATA`, and the handshake agent
(60_exceptions.md R225, R233, R234, R237): what a move of the agent can do, said once, and where its poll leads. -/

namespace Sys2Proof.Machine

/-! ### A step makes the first move of the agenda (R237) -/

theorem step_of_agenda_nil {s : State} (h : s.agenda = []) : step s = .next s := by
  simp [step, h]

theorem step_of_agenda_cons {s : State} {m : Move} {ms : List Move} (h : s.agenda = m :: ms) :
    step s = perform m { s with agenda := ms } := by
  simp [step, h, stepWith]

/-- Settles O7: `perform` is defined by cases on the move that the step takes from the agenda. -/
theorem stepMakesTheNextMove : Obligations.StepMakesTheNextMove := by
  unfold Obligations.StepMakesTheNextMove
  exact fun s c i r ms => ⟨step_of_agenda_cons, step_of_agenda_cons, step_of_agenda_cons, step_of_agenda_cons,
    step_of_agenda_nil⟩

/-! ### A channel above `N_DATA` (R225, R227) -/

section
variable {s : State} {ch : Nat}

theorem onChannel_of_unknown (hl : s.life = .alive) (hc : s.cfg.nData.val < ch) (k : Result) :
    onChannel ch s k = .refused .channelRange := by
  simp [onChannel, whenAlive_of_alive hl, known, hc]

theorem beginTx_of_unknown (hl : s.life = .alive) (hc : s.cfg.nData.val < ch) (ws : List Bytes) (n : Nat) :
    beginTx ch ws n s = .refused .channelRange := by
  simp [beginTx, hl, known, hc]
end

/-- Settles O50: a writer call is refused at its beginning, a registry operation by its check. -/
theorem channelRangeRefused : Obligations.ChannelRangeRefused := by
  unfold Obligations.ChannelRangeRefused
  intro ch p kind pf h s hl hc
  have hwriter : ∀ ws n, runBegun (beginTx ch ws n s) = .refused .channelRange := fun ws n =>
    congrArg runBegun (beginTx_of_unknown hl hc ws n)
  have hregistry := onChannel_of_unknown hl hc
  exact ⟨hwriter _ _, hwriter _ _, hregistry _, hregistry _, hregistry _⟩

/-! ### What ACK_READ tells the agent (R204, R233, R234) -/

theorem ackValue_eq_ack {s : State} {a : Option Nat} (h : ackValue s = .ack a) : s.life = .alive ∧ s.ackReg = a := by
  cases hl : s.life with
  | tornDown =>
    rw [ackValue_of_tornDown hl] at h
    cases h
  | alive =>
    rw [ackValue_of_alive hl] at h
    cases h
    exact ⟨rfl, rfl⟩

theorem afterPoll_stopped (hs : Handshake) : afterPoll hs .stopped = (none, some false) := rfl

section
variable {hs : Handshake} {a : Option Nat}

theorem afterPoll_of_bound (ha : a ≠ some hs.ch) (hb : hs.retryBound ≤ hs.tries + 1) :
    afterPoll hs (.ack a) = (none, some false) := by
  simp [afterPoll, ha, hb]

theorem afterPoll_of_lt_bound (ha : a ≠ some hs.ch) (hb : hs.tries + 1 < hs.retryBound) :
    afterPoll hs (.ack a) = (some { hs with tries := hs.tries + 1 }, none) := by
  simp [afterPoll, ha, Nat.not_le.2 hb]
end

/-- A poll leads to SET_OPEN only by the acknowledgement of the agent's own channel. -/
theorem afterPoll_mark {hs hs' : Handshake} {v : Value} (hp : hs.phase = .poll) (h : (afterPoll hs v).1 = some hs')
    (hm : hs'.phase = .mark) : v = .ack (some hs.ch) ∧ hs'.ch = hs.ch := by
  unfold afterPoll at h
  split at h
  · cases h
  · split at h
    · next hv =>
      cases h
      exact ⟨hv, rfl⟩
    · split at h <;> cases h
      exact absurd (hp.symm.trans hm) (by decide)

/-! ### What a move of the agent can do (R233) -/

theorem andAgent_next {r : Result} {next : Option Handshake} {res : Option Bool} {t : State}
    (h : andAgent r next res = .next t) : ∃ u, r = .next u ∧ t = { u with handshake := next, openResult := res } := by
  cases r with
  | next u =>
    cases h
    exact ⟨u, rfl, rfl⟩
  | fault f => cases h
  | refused q => cases h

/-- A call of the agent that is neither RESET nor SET_OPEN leaves the open flags and puts the agent at its next place. -/
theorem andAgent_exec_next {i : Instr} {s t : State} {next : Option Handshake} {res : Option Bool}
    (h : andAgent (exec i s) next res = .next t) (hr : ∀ r, i ≠ .reset r) (ho : ∀ ch, i ≠ .setOpen ch) :
    t.opened = s.opened ∧ t.handshake = next := by
  obtain ⟨u, hu, rfl⟩ := andAgent_next h
  obtain ⟨-, -, hopened, -⟩ := registryHasOneWriter i s u hu hr
  exact ⟨hopened ho, rfl⟩

/-- What a move of the agent `hs` from `s` to `t` did to the open flags and to the agent, by phase: before its poll;
at its poll; at its SET_OPEN. -/
inductive AgentMoved (hs : Handshake) (s t : State) : Prop where
  | early (hm : hs.phase ≠ .mark) (hopened : t.opened = s.opened)
      (hnext : ∀ hs', t.handshake = some hs' → hs'.phase ≠ .mark)
  | polled (hp : hs.phase = .poll) (hopened : t.opened = s.opened) (hnext : t.handshake = (afterPoll hs (ackValue s)).1)
  | marked (hm : hs.phase = .mark) (hk : hs.ch ≤ s.cfg.nData.val) (hopened : t.opened = (s.setOpened hs.ch).opened)

theorem handshakeMove_next {hs : Handshake} {s t : State} (he : s.handshake = some hs)
    (h : handshakeMove hs s = .next t) : AgentMoved hs s t := by
  have hplace : ∀ {next : Handshake}, t.handshake = some next → next.phase ≠ .mark →
      ∀ hs', t.handshake = some hs' → hs'.phase ≠ .mark := by
    intro next ht hn hs' ht'
    cases ht.symm.trans ht'
    exact hn
  unfold handshakeMove at h
  cases hp : hs.phase with
  | clear =>
    simp only [hp] at h
    obtain ⟨hopened, hnext⟩ := andAgent_exec_next h nofun nofun
    exact .early (by simp [hp]) hopened (hplace hnext nofun)
  | send =>
    simp only [hp] at h
    obtain ⟨hopened, hnext⟩ := andAgent_exec_next h nofun nofun
    exact .early (by simp [hp]) hopened (hplace hnext nofun)
  | sent =>
    simp only [hp] at h
    split at h
    · cases h
      exact .early (by simp [hp]) rfl (hplace he (by simp [hp]))
    · split at h <;> cases h
      · exact .early (by simp [hp]) rfl nofun
      · exact .early (by simp [hp]) rfl (hplace rfl nofun)
  | poll =>
    simp only [hp] at h
    obtain ⟨hopened, hnext⟩ := andAgent_exec_next h nofun nofun
    exact .polled hp hopened hnext
  | mark =>
    simp only [hp] at h
    obtain ⟨u, hu, rfl⟩ := andAgent_next h
    obtain ⟨-, hk, hwrite⟩ := onChannel_next hu
    cases hwrite
    exact .marked hp hk rfl

theorem step_openTick {s : State} {hs : Handshake} {ms : List Move} (h : s.agenda = .openTick :: ms)
    (he : s.handshake = some hs) : step s = handshakeMove hs { s with agenda := ms } := by
  rw [step_of_agenda_cons h]
  simp [perform, openTick, he]

theorem State.openAt_congr {s t : State} (h : t.opened = s.opened) (c : Nat) : t.openAt c = s.openAt c :=
  congrArg (fun v => v[slot c]) h

/-- Settles O59: before SET_OPEN no flag changes, SET_OPEN writes the agent's channel alone, and only the poll that
reads that channel's acknowledgement leads there. -/
theorem handshakeOpensAfterAck : Obligations.HandshakeOpensAfterAck := by
  unfold Obligations.HandshakeOpensAfterAck
  intro s t hs ms hag he h
  rw [step_openTick hag he] at h
  cases handshakeMove_next (s := { s with agenda := ms }) he h with
  | early hm hopened hnext =>
    exact ⟨fun _ => hopened, fun hp => absurd hp hm, fun hs' ht hm' => absurd hm' (hnext hs' ht)⟩
  | polled hp hopened hnext =>
    refine ⟨fun _ => hopened, fun hm => absurd (hp.symm.trans hm) (by decide), fun hs' ht hm _ => ?_⟩
    obtain ⟨hv, hch⟩ := afterPoll_mark hp (hnext.symm.trans ht) hm
    obtain ⟨hl, hack⟩ := ackValue_eq_ack hv
    exact ⟨hp, hch, hack, hl⟩
  | marked hm hk hopened =>
    refine ⟨fun hn => absurd hm hn, fun _ => ⟨?_, fun c hc hne => ?_⟩, fun _ _ _ hn => absurd hm hn⟩
    · rw [State.openAt_congr hopened, State.openAt_setOpened_same]
    · rw [State.openAt_congr hopened, State.openAt_setOpened_other _ (le_63_of_le_nData hk) hc hne]
      rfl

/-! ### The poll (R233, R234) -/

/-- A poll is never refused: it reads the register and puts the agent where the value read sends it. -/
theorem step_of_poll {s : State} {hs : Handshake} {ms : List Move} (h : s.agenda = .openTick :: ms)
    (he : s.handshake = some hs) (hp : hs.phase = .poll) :
    ∃ t, step s = .next t ∧ (t.handshake, t.openResult) = afterPoll hs (ackValue s) := by
  rw [step_openTick h he, handshakeMove, hp]
  exact ⟨_, rfl, rfl⟩

/-- Settles O60: the three clauses are the value `stopped`, the last try and a try before it. -/
theorem handshakeEndsOnTimeoutAndStop : Obligations.HandshakeEndsOnTimeoutAndStop := by
  unfold Obligations.HandshakeEndsOnTimeoutAndStop
  intro s hs ms hag he hp
  obtain ⟨t, ht, hplace⟩ := step_of_poll hag he hp
  refine ⟨t, ht, fun hl => ?_, fun hl hack hb => ?_, fun hl hack hb => ?_⟩
  · rw [ackValue_of_tornDown hl, afterPoll_stopped] at hplace
    exact Prod.mk.inj hplace
  · rw [ackValue_of_alive hl, afterPoll_of_bound hack hb] at hplace
    exact Prod.mk.inj hplace
  · rw [ackValue_of_alive hl, afterPoll_of_lt_bound hack hb] at hplace
    exact congrArg Prod.fst hplace

end Sys2Proof.Machine
end

section
/-! PROOFS. Reset and hazards (70_reset_and_hazards.md R260, R261, R269): a writer call that waits for the lock its own
caller holds waits for ever; what a newly constructed instance is. -/

namespace Sys2Proof.Machine

/-! ### Which calls in flight a move leaves there -/

/-- A call made whole leaves the older calls in flight where they are, behind at most itself. -/
theorem runTask_inflight {n : Nat} {t : Task} {s u : State} (h : runTask n t s = .next u) :
    s.inflight <:+ u.inflight := by
  induction n generalizing t s with
  | zero =>
    cases h
    exact List.suffix_cons t s.inflight
  | succ n ih =>
    unfold runTask at h
    cases e : moveTask t s with
    | blocked =>
      simp only [e] at h
      cases h
      exact List.suffix_cons t s.inflight
    | fault f =>
      simp only [e] at h
      cases h
    | returned s' =>
      simp only [e] at h
      cases h
      rw [(moveTask_inflight t s).1 u e]
    | goesOn t' s' =>
      simp only [e] at h
      exact moveTask_goesOn_inflight e ▸ ih h

theorem begunOf_inflight {i : Instr} {s s' : State} {t : Task} (h : begunOf i s = some (.begun t s')) :
    s'.inflight = s.inflight := by
  rcases begunOf_cases h with ⟨_, c, e⟩ | ⟨_, ch, ws, n, e⟩
  · obtain ⟨-, -, -, rfl⟩ := beginRx_begun e.symm
    rfl
  · obtain ⟨-, -, rfl⟩ := beginTx_begun e.symm
    rfl

section
variable {i : Instr} {s t : State} (hr : ∀ r, i ≠ .reset r)
include hr

theorem exec_inflight (h : exec i s = .next t) : s.inflight <:+ t.inflight := by
  have he := exec_effect i s
  rw [h] at he
  cases he with
  | @call _ b _ hb hrun =>
    cases b with
    | refused q => cases hrun
    | begun task s' => exact begunOf_inflight hb ▸ runTask_inflight hrun
  | reset r cfg => exact absurd rfl (hr r)
  | _ => exact List.suffix_refl _

theorem beginCall_inflight (h : beginCall i s = .next t) : s.inflight <:+ t.inflight := by
  unfold beginCall at h
  split at h
  · next b hb =>
    cases b with
    | refused q => cases h
    | begun task s' =>
      cases h
      exact begunOf_inflight hb ▸ List.suffix_cons task s'.inflight
  · exact exec_inflight hr h

theorem andAgent_exec_inflight {next : Option Handshake} {res : Option Bool}
    (h : andAgent (exec i s) next res = .next t) : s.inflight <:+ t.inflight := by
  obtain ⟨u, hu, rfl⟩ := andAgent_next h
  exact (exec_inflight hr hu :)
end

theorem openTick_inflight {s t : State} (h : openTick s = .next t) : s.inflight <:+ t.inflight := by
  unfold openTick at h
  split at h
  · cases h
    exact List.suffix_refl _
  · next hs _ =>
    unfold handshakeMove at h
    cases hp : hs.phase <;> simp only [hp] at h
    case sent =>
      split at h
      · cases h
        exact List.suffix_refl _
      · split at h <;> cases h <;> exact List.suffix_refl _
    all_goals exact andAgent_exec_inflight (s := s.setCaller hs.caller) (by simp) h

/-- Only an advance and a RESET take a call out of flight or change one there. -/
theorem perform_inflight {m : Move} {s t : State} (ha : ∀ d, m ≠ .advance d) (hr : m.resets = false)
    (h : perform m s = .next t) : s.inflight <:+ t.inflight := by
  cases m with
  | arrive d chunk => exact exec_inflight (s := s.setCaller d) (ne_reset_of_inbound (inbound_fetch chunk)) h
  | call d i =>
    refine exec_inflight (s := s.setCaller d) ?_ h
    rintro r rfl
    cases hr
  | begin d i =>
    refine beginCall_inflight (s := s.setCaller d) ?_ h
    rintro r rfl
    cases hr
  | advance d => exact absurd rfl (ha d)
  | reply r =>
    cases h
    exact List.suffix_refl _
  | openBegin d sabmCtrl retryBound =>
    cases h
    exact List.suffix_refl _
  | openTick => exact openTick_inflight h

/-! ### The waiting call and the holder among the writer calls (R269) -/

/-- The writer calls in flight, each caller's innermost first. -/
def State.writerCalls (s : State) : List Task := s.inflight.filter Task.isTx

@[simp] theorem Task.isTx_rx (c : Caller) (rest : Bytes) : (Task.rx c rest).isTx = false := rfl
@[simp] theorem Task.isTx_tx (job : TxJob) : (Task.tx job).isTx = true := rfl

theorem Task.isTx_of_holdsLock {t : Task} (h : t.holdsLock = true) : t.isTx = true := by
  cases t with
  | rx c rest => cases h
  | tx job => rfl

/-- Two entries of a list, the first before the second, are a sublist of it. -/
theorem pair_sublist_iff {α : Type} {a b : α} {l : List α} :
    [a, b].Sublist l ↔ ∃ pre mid post, l = pre ++ a :: (mid ++ b :: post) := by
  constructor
  · intro h
    obtain ⟨l₁, l₂, rfl, ha, hb⟩ := List.cons_sublist_iff.1 h
    obtain ⟨pre, mid₁, rfl⟩ := List.append_of_mem ha
    obtain ⟨mid₂, post, rfl⟩ := List.append_of_mem (List.singleton_sublist.1 hb)
    exact ⟨pre, mid₁ ++ mid₂, post, by simp⟩
  · rintro ⟨pre, mid, post, rfl⟩
    exact List.cons_sublist_iff.2 ⟨pre ++ [a], mid ++ b :: post, by simp, by simp, by simp⟩

/-- A deadlock is seen in the lock and in the order of the writer calls. -/
theorem deadlocked_iff {c : Caller} {s : State} :
    Deadlocked c s ↔ s.txlock = .held c ∧ ∃ job holder, [.tx job, holder].Sublist s.writerCalls ∧
      job.caller = c ∧ job.phase = .waiting ∧ holder.callerOf = c ∧ holder.holdsLock = true := by
  constructor
  · rintro ⟨hlock, inner, job, mid, holder, outer, hin, hjob, hwait, hcaller, hholds⟩
    have hpair : [.tx job, holder].Sublist s.inflight := pair_sublist_iff.2 ⟨inner, mid, outer, hin⟩
    have hwriters := hpair.filter Task.isTx
    rw [List.filter_eq_self.2 (by simp [Task.isTx_of_holdsLock hholds])] at hwriters
    exact ⟨hlock, job, holder, hwriters, hjob, hwait, hcaller, hholds⟩
  · rintro ⟨hlock, job, holder, hwriters, hjob, hwait, hcaller, hholds⟩
    obtain ⟨inner, mid, outer, hin⟩ := pair_sublist_iff.1 (hwriters.trans List.filter_sublist)
    exact ⟨hlock, inner, job, mid, holder, outer, hin, hjob, hwait, hcaller, hholds⟩

/-- A deadlock lasts while the lock stays and no writer call goes. -/
theorem Deadlocked.mono {c : Caller} {s t : State} (h : Deadlocked c s) (hlock : t.txlock = s.txlock)
    (hwriters : s.writerCalls.Sublist t.writerCalls) : Deadlocked c t := by
  obtain ⟨hl, job, holder, hpair, hrest⟩ := deadlocked_iff.1 h
  exact deadlocked_iff.2 ⟨hlock.trans hl, job, holder, hpair.trans hwriters, hrest⟩

/-! ### The holder is never a caller's innermost call (R269) -/

/-- The innermost call of a caller stands no further out than any call of that caller. -/
theorem splitAt_append_cons {c : Caller} {u t : Task} {inner outer pre post : List Task} (hu : u.callerOf = c)
    (h : splitAt c (inner ++ u :: outer) = some (pre, t, post)) : t ∈ inner ∨ t = u := by
  induction inner generalizing pre with
  | nil =>
    simp only [List.nil_append, splitAt, hu, if_true] at h
    cases h
    exact .inr rfl
  | cons v inner ih =>
    simp only [List.cons_append, splitAt] at h
    split at h
    · cases h
      exact .inl List.mem_cons_self
    · split at h
      · cases h
      · next e =>
        cases h
        exact (ih e).imp_left (List.mem_cons_of_mem v)

theorem lockHolders_eq_nil_iff {ts : List Task} : lockHolders ts = [] ↔ ∀ t ∈ ts, t.holdsLock = false := by
  simp [lockHolders, List.filter_eq_nil_iff]

/-- In a deadlock the call that advances does not hold the lock: before the one holder its caller has the call that
waits. -/
theorem Deadlocked.innermost_not_holder {c d : Caller} {s : State} {t : Task} {pre post : List Task}
    (h : Deadlocked c s) (hcalls : CallsInv s) (hsplit : splitAt d s.inflight = some (pre, t, post)) :
    t.holdsLock = false := by
  obtain ⟨hlock, inner, job, mid, holder, outer, hin, hjob, hwait, -, hholds⟩ := h
  by_cases hd : d = c
  · subst hd
    obtain ⟨-, hholders, -⟩ := hcalls
    have happend : s.inflight = (inner ++ .tx job :: mid) ++ holder :: outer := by rw [hin]; simp
    rw [happend, lockHolders_insert_holder _ _ _ hholds, lockHolders_eq_nil_iff] at hholders
    obtain ⟨-, hothers⟩ := hholders
    rw [hin] at hsplit
    rcases splitAt_append_cons (u := .tx job) hjob hsplit with hmem | rfl
    · exact hothers t (by simp [hmem])
    · exact hothers _ (by simp)
  · obtain ⟨hmem, hcaller, -⟩ := splitAt_eq_some hsplit
    exact not_holdsLock_of_other_caller hcalls hlock (by simp [hmem]) (hcaller ▸ hd)

/-- A call that moves while another call holds the lock is an RX_CHUNK call. -/
theorem isRx_of_moved {t : Task} {s u : State} {c : Caller} (hl : s.txlock = .held c) (ht : t.holdsLock = false)
    (h : (moveTask t s).after = some u) : t.isRx = true := by
  cases t with
  | rx d rest => rfl
  | tx job =>
    have hp : job.phase = .waiting := by simpa [Task.holdsLock] using ht
    rw [moveTask_waiting_held hp hl] at h
    cases h

theorem filter_isTx_insert_rx (pre post : List Task) {t : Task} (ht : t.isRx = true) :
    (pre ++ t :: post).filter Task.isTx = (pre ++ post).filter Task.isTx := by
  cases t with
  | rx c rest => simp
  | tx job => cases ht

/-- In a deadlock an advance touches neither the writer's side nor a writer call. -/
theorem Deadlocked.advance_keeps {c d : Caller} {s t : State} (h : Deadlocked c s) (hcalls : CallsInv s)
    (ht : advance d s = .next t) : t.transmitter = s.transmitter ∧ t.writerCalls = s.writerCalls := by
  obtain ⟨hlock, -⟩ := id h
  unfold advance at ht
  split at ht
  · cases ht
    exact ⟨rfl, rfl⟩
  · next pre task post hsplit =>
    have hfree := h.innermost_not_holder hcalls hsplit
    obtain ⟨hin, -, -⟩ := splitAt_eq_some hsplit
    have hwriters : ∀ u, (moveTask task s).after = some u → s.writerCalls = (pre ++ post).filter Task.isTx := by
      intro u hu
      rw [State.writerCalls, hin, filter_isTx_insert_rx pre post (isRx_of_moved hlock hfree hu)]
    split at ht
    · cases ht
      exact ⟨rfl, rfl⟩
    · cases ht
    · next u e =>
      have hu : (moveTask task s).after = some u := by rw [e]; rfl
      cases ht
      exact ⟨(moveTask_transmitter hlock hfree hu :), (hwriters u hu).symm⟩
    · next task' u e =>
      have hu : (moveTask task s).after = some u := by rw [e]; rfl
      cases ht
      refine ⟨(moveTask_transmitter hlock hfree hu :), ?_⟩
      rw [hwriters u hu]
      exact filter_isTx_insert_rx pre post (moveTask_isRx (isRx_of_moved hlock hfree hu) e)

/-- In a deadlock no move but a RESET touches the writer's side, and no writer call goes. -/
theorem Deadlocked.perform_keeps {c : Caller} {m : Move} {s t : State} (h : Deadlocked c s) (hcalls : CallsInv s)
    (hr : m.resets = false) (ht : perform m s = .next t) :
    t.transmitter = s.transmitter ∧ s.writerCalls.Sublist t.writerCalls := by
  obtain ⟨hlock, -⟩ := id h
  by_cases ha : ∃ d, m = .advance d
  · obtain ⟨d, rfl⟩ := ha
    obtain ⟨hside, hwriters⟩ := h.advance_keeps hcalls ht
    exact ⟨hside, hwriters ▸ List.Sublist.refl _⟩
  · have hm : ∀ d, m ≠ .advance d := fun d e => ha ⟨d, e⟩
    exact ⟨perform_keepsTransmitter hcalls hlock (hm c) hr t ht, (perform_inflight hm hr ht).sublist.filter _⟩

/-- Settles O25: the lock can be released only by its holder, which never is its caller's innermost call, so every move
leaves the lock, the outbound stream and the writer calls in flight. -/
theorem selfDeadlockIsForEver : Obligations.SelfDeadlockIsForEver := by
  unfold Obligations.SelfDeadlockIsForEver
  intro s t c m ms hinv h hag hstep hr
  obtain ⟨-, hcalls, -, -⟩ := hinv
  rw [step_of_agenda_cons hag] at hstep
  have hmoved : Deadlocked c { s with agenda := ms } := h
  obtain ⟨hside, hwriters⟩ := hmoved.perform_keeps hcalls hr hstep
  obtain ⟨hlock, hwire, -⟩ := State.transmitter_eq_iff.1 hside
  exact ⟨h.mono hlock hwriters, hwire⟩

/-! ### A newly constructed instance (R260, R261) -/

section
variable (cfg : Cfg) (s : State) (c : Nat)

@[simp] theorem construct_cbAt : (State.construct cfg).cbAt c = none := by simp [State.construct, State.cbAt]

@[simp] theorem construct_openAt : (State.construct cfg).openAt c = false := by simp [State.construct, State.openAt]

@[simp] theorem rebuild_cbAt : (rebuild cfg s).cbAt c = none := construct_cbAt cfg c

@[simp] theorem rebuild_openAt : (rebuild cfg s).openAt c = false := construct_openAt cfg c
end

section
variable {r : CfgRequest} (s : State)

theorem exec_reset_of_le (h : r.nData ≤ 63) :
    exec (.reset r) s = .next (rebuild ⟨⟨r.nData, Nat.lt_succ_of_le h⟩, r.defrag, r.verifyFcs, r.ackCtrl⟩ s) :=
  dif_pos (Nat.lt_succ_of_le h)

theorem exec_reset_of_gt (h : 63 < r.nData) : exec (.reset r) s = .refused .badConfig :=
  dif_neg (Nat.not_lt.2 h)
end

/-- Settles O51: `N_DATA` in range, the answer is the rebuilt instance; out of range, the refusal. -/
theorem resetConstructsAnInstance : Obligations.ResetConstructsAnInstance := by
  unfold Obligations.ResetConstructsAnInstance
  refine fun r s => ⟨fun h => ⟨_, exec_reset_of_le s h, ?_⟩, exec_reset_of_gt s⟩
  exact ⟨rfl, rfl, rfl, rfl, rfl, rfl, rfl, rfl, rfl, rfl, fun c _ => ⟨rebuild_cbAt _ s c, rebuild_openAt _ s c⟩,
    rfl, rfl, rfl, rfl, rfl, rfl, rfl, rfl, rfl, rfl, rfl, rfl, rfl⟩

/-- Settles O52: `State.reset` is the instance constructed with the default configuration. -/
theorem powerOnState : Obligations.PowerOnState := by
  unfold Obligations.PowerOnState
  exact ⟨rfl, rfl, rfl, rfl, rfl, rfl, fun c _ => ⟨construct_cbAt Cfg.default c, construct_openAt Cfg.default c⟩,
    rfl, rfl, rfl, rfl, rfl, rfl, rfl, rfl, rfl⟩

end Sys2Proof.Machine
end
